-- ==== Sys2Proof/Word.lean ====
section
/-! DEFINITION. The words the manual reads and writes whole: bytes, sequence numbers, epoch seconds and
programme-clock values. Each wraps at its own width (00_scope, Units and numbers). -/

namespace Sys2Proof

/-- One byte of a link, of the Control Link or of a cell. -/
abbrev Byte := BitVec 8

/-- A run of bytes in the order in which they cross a port (12, introduction). -/
abbrev Bytes := List Byte

/-- An epoch second, modulo 2^32 (00, Ticks, seconds and stamps; R1). -/
abbrev Epoch := BitVec 32

/-- The sequence number of a distribution cell, modulo 2^32 (00, Counters). -/
abbrev Seq := BitVec 32

/-- A programme-clock value, modulo 2^40 (00, Programme clock). -/
abbrev Clock := BitVec 40

end Sys2Proof
end

