-- ==== Sys2Proof/Syntax.lean ====
section
/-! DEFINITION. The commands of the part, one constructor for each row of spec/opcode_table.json. Events carry
what reaches the port; a request carries its tag and its fields as the frame carries them, each at the width R201
gives it, so that a field outside its range can be written down and refused. -/

namespace Sys2Proof

/-- The two distribution links (02). -/
inductive Link where
  | a
  | b
deriving DecidableEq, Repr

/-- The polarity of a PPS edge (R6, R21). -/
inductive Edge where
  | rising
  | falling
deriving DecidableEq, Repr

/-- The fields of TIME.CONFIG in the order of R21. -/
structure TimeConfigBody where
  source : Byte
  polarity : Byte
  kp : Byte
  ki : Byte
  window : BitVec 16
  qualify : Byte
  holdover : BitVec 24
  policy : Byte
deriving DecidableEq, Repr

/-- The fields of SITE.CONFIG in the order of R114. -/
structure SiteConfigBody where
  siteId : BitVec 16
  zone : Byte
  period : BitVec 32
  offset : BitVec 32
  latency : BitVec 32
  dn0 : BitVec 32
  holdMax : BitVec 32
  outputEnable : Byte
  feedLossMute : Byte
  linkTimeout : BitVec 16
deriving DecidableEq, Repr

/-- The fields of STREAM.SET in the order of R50. -/
structure StreamSetBody where
  index : BitVec 16
  label : BitVec 16
  origin : Byte
  cls : Byte
  service : Byte
deriving DecidableEq, Repr

/-- The fields of SERVICE.SET in the order of R53; the component count is the length of the list. -/
structure ServiceSetBody where
  index : Byte
  valid : Byte
  number : BitVec 16
  labels : List (BitVec 16)
deriving DecidableEq, Repr

/-- The fields of PLAN.WRITE in the order of R106; the count of entries is the length of the list. -/
structure PlanWriteBody where
  bank : Byte
  first : BitVec 16
  entries : Bytes
  lengthPresent : Byte
  length : BitVec 16
deriving DecidableEq, Repr

/-- The fields of CLIP.DEFINE in the order of R122. -/
structure ClipDefineBody where
  clip : Byte
  base : BitVec 32
  capacity : BitVec 32
  duration : BitVec 24
  clock : BitVec 40
  period : BitVec 32
deriving DecidableEq, Repr

/-- A clip cell record as CLIP.WRITE carries it (R202): 185 bytes. -/
structure RecordBody where
  component : Byte
  due : BitVec 24
  flags : Byte
  payload : Bytes
deriving DecidableEq, Repr

/-- A reel step as REEL.SET carries it: the kind, and both the clip index of PLAY and the count of LOOP, zero where
they do not apply (R128, R201; log entry 17). -/
structure StepBody where
  kind : Byte
  clip : Byte
  count : Byte
deriving DecidableEq, Repr

/-- The fields of INSERT.ARM in the order of R141. -/
structure InsertArmBody where
  record : Byte
  service : Byte
  trigger : Byte
  cueId : BitVec 32
  second : BitVec 32
  slot : BitVec 24
  reel : Byte
  endRule : Byte
  length : BitVec 24
  limitPresent : Byte
  limit : BitVec 32
deriving DecidableEq, Repr

/-- The commands: one constructor for each row of the table of operations and events. -/
inductive Instr where
  /-- POWER_ON_RESET (R24). -/
  | powerOnReset
  /-- SECOND_BOUNDARY (R2). -/
  | secondBoundary
  /-- HOLDOVER_EXPIRED (R17). -/
  | holdoverExpired
  /-- PPS_EDGE (R7): an edge on the PPS input. -/
  | ppsEdge (edge : Edge)
  /-- REFERENCE_LOST (R8). -/
  | referenceLost
  /-- CELL_ARRIVAL (R28): the byte that completes a cell. -/
  | cellArrival (link : Link) (byte : Byte)
  /-- RUNT (R27): a byte with start-of-cell that meets a cell in progress. -/
  | runt (link : Link) (byte : Byte)
  /-- OVERLONG (R29): the first extra byte after a complete cell. -/
  | overlong (link : Link) (byte : Byte)
  /-- LINK_TIMEOUT (R33). -/
  | linkTimeout (link : Link)
  /-- CELL_TAKE (R39). -/
  | cellTake (link : Link)
  /-- RELEASE_COMPUTATION (R79). -/
  | releaseComputation
  /-- TIMING_CELL (R75). -/
  | timingCell
  /-- CUE_TAKE (R146). -/
  | cueTake
  /-- SLOT_BOUNDARY (R95). -/
  | slotBoundary
  /-- RETURN_LIMIT_EXPIRY (R161): of one insertion record. -/
  | returnLimitExpiry (record : Nat)
  /-- TRANSFER_START (R180): select is asserted. -/
  | transferStart
  /-- TRANSFER_END (R182): select is deasserted. -/
  | transferEnd
  /-- SYNC_ERROR (R181): a byte other than 0x5D after the first sync byte. -/
  | syncError (byte : Byte)
  /-- LENGTH_ERROR (R182): the byte that makes the length exceed 1,600. -/
  | lengthError (byte : Byte)
  /-- COMPLETE_FRAME (R183): the last CRC byte of a frame. -/
  | completeFrame (byte : Byte)
  /-- REPLY_MADE_READY (R187). -/
  | replyMadeReady
  /-- REPLY_READ (R180): the byte shifted in as the reply's last byte is shifted out. -/
  | replyRead (byte : Byte)
  /-- TIME.CONFIG (R21). -/
  | timeConfig (tag : BitVec 16) (body : TimeConfigBody)
  /-- TIME.SET (R3). -/
  | timeSet (tag : BitVec 16) (second : BitVec 32)
  /-- TIME.READ (R22). -/
  | timeRead (tag : BitVec 16)
  /-- TIME.CLEAR (R11). -/
  | timeClear (tag : BitVec 16) (choice : Byte)
  /-- ORIGIN.SET (R48). -/
  | originSet (tag : BitVec 16) (index : Byte) (valid : Byte) (originId : BitVec 32) (links : Byte)
  /-- ORIGIN.READ (R56). -/
  | originRead (tag : BitVec 16) (index : Byte)
  /-- STREAM.SET (R50). -/
  | streamSet (tag : BitVec 16) (body : StreamSetBody)
  /-- STREAM.CLEAR (R52). -/
  | streamClear (tag : BitVec 16) (index : BitVec 16)
  /-- STREAM.READ (R56). -/
  | streamRead (tag : BitVec 16) (index : BitVec 16)
  /-- SERVICE.SET (R53, R55). -/
  | serviceSet (tag : BitVec 16) (body : ServiceSetBody)
  /-- SERVICE.READ (R56). -/
  | serviceRead (tag : BitVec 16) (index : Byte)
  /-- RELEASE.READ (R92). -/
  | releaseRead (tag : BitVec 16)
  /-- SITE.CONFIG (R114). -/
  | siteConfig (tag : BitVec 16) (body : SiteConfigBody)
  /-- SITE.READ (R116). -/
  | siteRead (tag : BitVec 16)
  /-- PLAN.WRITE (R106). -/
  | planWrite (tag : BitVec 16) (body : PlanWriteBody)
  /-- PLAN.SWAP (R107). -/
  | planSwapRequest (tag : BitVec 16) (second : BitVec 32)
  /-- PLAN.CANCEL (R108). -/
  | planCancel (tag : BitVec 16)
  /-- PLAN.READ (R108): a bank and a range of positions, given by its first and its count. -/
  | planRead (tag : BitVec 16) (bank : Byte) (first : BitVec 16) (count : BitVec 16)
  /-- SITECELL.SET (R110). -/
  | sitecellSet (tag : BitVec 16) (cells : List Bytes)
  /-- SITECELL.READ (R110). -/
  | sitecellRead (tag : BitVec 16)
  /-- CLIP.DEFINE (R122). -/
  | clipDefine (tag : BitVec 16) (body : ClipDefineBody)
  /-- CLIP.WRITE (R123). -/
  | clipWrite (tag : BitVec 16) (clip : Byte) (first : BitVec 32) (records : List RecordBody)
  /-- CLIP.CLOSE (R125). -/
  | clipClose (tag : BitVec 16) (clip : Byte)
  /-- CLIP.DELETE (R126). -/
  | clipDelete (tag : BitVec 16) (clip : Byte)
  /-- CLIP.READ (R127). -/
  | clipRead (tag : BitVec 16) (clip : Byte)
  /-- REEL.SET (R130). -/
  | reelSet (tag : BitVec 16) (reel : Byte) (steps : List StepBody)
  /-- REEL.READ (R132). -/
  | reelRead (tag : BitVec 16) (reel : Byte)
  /-- INSERT.ARM (R141). -/
  | insertArm (tag : BitVec 16) (body : InsertArmBody)
  /-- INSERT.CANCEL (R143). -/
  | insertCancel (tag : BitVec 16) (record : Byte)
  /-- INSERT.RETURN (R144). -/
  | insertReturn (tag : BitVec 16) (record : Byte)
  /-- INSERT.CLEAR (R145). -/
  | insertClear (tag : BitVec 16) (record : Byte)
  /-- INSERT.READ (R145). -/
  | insertRead (tag : BitVec 16) (record : Byte)
  /-- NOTICE.FETCH (R191). -/
  | noticeFetch (tag : BitVec 16)
  /-- SYSTEM.IDENTIFY (R193). -/
  | systemIdentify (tag : BitVec 16)
  /-- STATUS.READ (R193). -/
  | statusRead (tag : BitVec 16)
  /-- COUNTS.READ (R194). -/
  | countsRead (tag : BitVec 16) (scope : Byte) (index : BitVec 16) (clear : Byte)
  /-- SYSTEM.RESTART (R195). -/
  | systemRestart (tag : BitVec 16)
  /-- A byte on a link (R26). -/
  | linkByte (link : Link) (startOfCell : Bool) (byte : Byte)
  /-- A byte shifted on the Control Link (R181). -/
  | controlLinkByte (byte : Byte)
deriving DecidableEq, Repr

end Sys2Proof
end

