-- ==== Sys2Proof/WellFormed.lean ====
section
/-! DEFINITION. Which commands can be sent at all: a request's counted list fits the byte that counts it and the
1,600 bytes of a frame body (R182, R201), a carried cell has 184 bytes and a clip cell record 185 (R202), and an
insertion record's index is one of the 16 (R138). -/

namespace Sys2Proof

/-- A clip cell record carries a payload of 180 bytes (R202). -/
def RecordBody.wellFormed (r : RecordBody) : Bool := r.payload.length == 180

/-- The command can be sent: see the file's head. -/
def Instr.wellFormed : Instr → Bool
  | .returnLimitExpiry record => decide (record < 16)
  | .serviceSet _ body => decide (body.labels.length ≤ 255)
  | .planWrite _ body => decide (body.entries.length ≤ 1592)
  | .sitecellSet _ cells => decide (cells.length ≤ 8) && cells.all (fun c => c.length == 184)
  | .clipWrite _ _ _ records => decide (records.length ≤ 8) && records.all RecordBody.wellFormed
  | .reelSet _ _ steps => decide (steps.length ≤ 255)
  | .powerOnReset .. | .secondBoundary .. | .holdoverExpired .. | .ppsEdge .. | .referenceLost ..
  | .cellArrival .. | .runt .. | .overlong .. | .linkTimeout .. | .cellTake .. | .releaseComputation ..
  | .timingCell .. | .cueTake .. | .slotBoundary .. | .transferStart .. | .transferEnd .. | .syncError ..
  | .lengthError .. | .completeFrame .. | .replyMadeReady .. | .replyRead .. | .timeConfig .. | .timeSet ..
  | .timeRead .. | .timeClear .. | .originSet .. | .originRead .. | .streamSet .. | .streamClear ..
  | .streamRead .. | .serviceRead .. | .releaseRead .. | .siteConfig .. | .siteRead ..
  | .planSwapRequest .. | .planCancel .. | .planRead .. | .sitecellRead .. | .clipDefine .. | .clipClose ..
  | .clipDelete .. | .clipRead .. | .reelRead .. | .insertArm .. | .insertCancel .. | .insertReturn ..
  | .insertClear .. | .insertRead .. | .noticeFetch .. | .systemIdentify .. | .statusRead ..
  | .countsRead .. | .systemRestart .. | .linkByte .. | .controlLinkByte .. => true

end Sys2Proof
end

