-- ==== Sys2Proof/Decode.lean ====
section
/-! DEFINITION. The words of the command table. No row of spec/opcode_table.json gives bits (every row's fields are
empty and it has no fixed pattern), so no word spells a command. The frames that carry requests are read in
Machine/Requests.lean. -/

namespace Sys2Proof

/-- The command a word of the table spells: none, for no row of the table gives bits (log entry 25). -/
def decodeTableWord (_nbits _w : Nat) : Option Instr := none

end Sys2Proof
end

