-- ==== Sys2Proof/Config.lean ====
section
/-! DEFINITION. The constants the manual fixes for the part, and the free values: what the manual leaves open
is an opaque constant here, so that no proof can see what it is. -/

namespace Sys2Proof.Config

/-- Ticks in a site second (00, Ticks, seconds and stamps). -/
def ticksPerSecond : Nat := 10000000

/-- Ticks in the stamp cycle of 64 seconds (00, Ticks, seconds and stamps). -/
def stampCycle : Nat := 640000000

/-- The eleven slot periods (00, Slots). -/
def slotPeriods : List Nat := [250, 320, 400, 500, 625, 640, 800, 1000, 1250, 1600, 2000]

/-- Where an event counter saturates (00, Counters). -/
def counterMax : Nat := 4294967295

/-- Entries of the Release Ring (R85). -/
def ringSize : Nat := 65536

/-- The step threshold Ts (R12). -/
def stepThreshold : Nat := 1000

/-- Ticks after which the reference timer expires (R8). -/
def referenceTicks : Nat := 15000000

/-- The largest age of a usable anchor, in ticks (R152, R167). -/
def anchorAgeMax : Nat := 20000000

/-- The farthest a cue slot or an AT splice may lie ahead, in ticks (R141, R148). -/
def farMax : Nat := 300000000

/-- FREE VALUE (log entry 2): the choices the manual leaves open when events fall together or the part's own work
waits. The first argument is a counter of State, the second numbers the choices drawn with it. -/
opaque freeChoice : Nat → Nat → Nat

/-- FREE VALUE (log entry 13): the level of the exciter data lines while output is enabled and valid is deasserted. -/
opaque freeDataByte : Nat → Byte

/-- FREE VALUE (log entry 14): byte k of clip cell n while no CLIP.WRITE has stored a record there (R136). -/
opaque unwrittenCellByte : Nat → Nat → Byte

end Sys2Proof.Config
end

