-- ==== Sys2Proof/Machine/State.lean ====
section
/-! DEFINITION. The state of the part as plain data, block by block, and its value after power-on reset.
Tables are sparse lists keyed by index, in the canonical form `Table.wf` (Machine/Tables.lean): an entry that is
not listed is invalid, EMPTY, IDLE, free or NULL, as its table says. -/

namespace Sys2Proof.Machine

/-- A table or a store: pairs of an index and what stands there, indices strictly rising. -/
abbrev Table (α : Type) := List (Nat × α)

/-! ## Time Unit (01) -/

/-- The step state (01, section 1.6), in the order of R201. -/
inductive StepState where
  | free
  | acquire
  | instep
  | holdover
deriving DecidableEq, Repr

/-- The step policy (R21). -/
inductive StepPolicy where
  | lockstep
  | solo
deriving DecidableEq, Repr

/-- TIME.CONFIG (R21). -/
structure TimeConfig where
  sourceEnabled : Bool
  polarity : Edge
  kp : Nat
  ki : Nat
  window : Nat
  qualify : Nat
  holdoverLimit : Nat
  policy : StepPolicy
deriving DecidableEq, Repr

/-- The Time Unit (01). Timers hold the ticks left; `none` is a stopped timer. -/
structure TimeUnit where
  tick : Nat
  second : Epoch
  epochKnown : Bool
  pendingSet : Option Epoch
  stepState : StepState
  qualifyCount : Nat
  mismatchCount : Nat
  holdover : Option Nat
  refEdge : Bool
  interval : Nat
  refTimer : Option Nat
  refExpired : Bool
  lastC : Option Nat
  lastE : Option Int
  lastInterval : Option Nat
  integrator : Int
  steering : Int
  steerLimit : Bool
  intLimit : Bool
  glitchCount : Nat
  longCount : Nat
  lostCount : Nat
  phaseCount : Nat
  config : TimeConfig
  /-- the last word sent on the steering output (R9) -/
  sentWord : Int
  /-- how many steering words have been sent since power-on; the model's own (log entry 16) -/
  sentCount : Nat
  /-- second boundaries taken; the model's own, for R18 (log entry 15) -/
  boundaries : Nat
deriving DecidableEq, Repr

/-! ## Link receivers (02) -/

/-- A link's delineation state (02, section 2.1). -/
inductive Delineation where
  | hunt
  | assembling (taken : Bytes)
  | trailing (extraSeen : Bool)
deriving DecidableEq, Repr

/-- A good cell as handed on (02, section 2.3). -/
structure GoodCell where
  link : Link
  originId : BitVec 32
  seq : Seq
  headStamp : Nat
  cell : Bytes
  arrivalTick : Nat
  arrivalStamp : Option Nat
  /-- second boundaries taken before the arrival (R18; log entry 15) -/
  arrivalBoundaries : Nat
deriving DecidableEq, Repr

/-- The ten counters of a link (R36). -/
structure LinkCounts where
  cells : Nat
  crcErrors : Nat
  runts : Nat
  overlong : Nat
  badStamps : Nat
  overruns : Nat
  unknownOrigin : Nat
  streamMisses : Nat
  firstArrivals : Nat
  secondArrivals : Nat
deriving DecidableEq, Repr

/-- One link receiver with its link (02). -/
structure LinkState where
  delineation : Delineation
  handOn : List GoodCell
  up : Bool
  timer : Option Nat
  counts : LinkCounts
  /-- the unknown-origin notice flag (R41) -/
  unknownFlag : Bool
deriving DecidableEq, Repr

/-! ## Classification tables and the merge (03, 04) -/

/-- The links an origin's cells are accepted on (03, section 3.1). -/
inductive PermittedLinks where
  | a
  | b
  | both
deriving DecidableEq, Repr

/-- A valid Origin Table entry (03, section 3.1). -/
structure OriginEntry where
  originId : BitVec 32
  links : PermittedLinks
deriving DecidableEq, Repr

/-- The class of a stream (03, section 3.3). -/
inductive StreamClass where
  | service
  | shared
  | cue
  | timing
  | drop
deriving DecidableEq, Repr

/-- A merge record (R59): bit k of `seen` is the mark of the number `highest - k`. -/
inductive MergeRecord where
  | fresh
  | running (highest : Seq) (seen : BitVec 64)
deriving DecidableEq, Repr

/-- The ten counters of a stream (R45). -/
structure StreamCounts where
  accepted : Nat
  duplicate : Nat
  stale : Nat
  lost : Nat
  late : Nat
  early : Nat
  collision : Nat
  misaligned : Nat
  untimed : Nat
  inconsistent : Nat
deriving DecidableEq, Repr

/-- A valid Stream Table entry (03, section 3.4). -/
structure StreamEntry where
  label : Nat
  origin : Nat
  cls : StreamClass
  service : Option Nat
  merge : MergeRecord
  counts : StreamCounts
deriving DecidableEq, Repr

/-- One component of a service with its runtime fields (R46, R47). -/
structure Component where
  label : Nat
  continuity : Nat
  emittedYet : Bool
  awaitDisc : Bool
deriving DecidableEq, Repr

/-- A valid clock anchor (R167). -/
structure Anchor where
  clock : Clock
  slot : Nat
deriving DecidableEq, Repr

/-- A service's splice state (R140). -/
inductive SpliceState where
  | network
  | primed
  | onLocal
  | returning
deriving DecidableEq, Repr

/-- A valid Service Table entry (R46, R47). -/
structure ServiceEntry where
  number : Nat
  components : List Component
  anchor : Option Anchor
  splice : SpliceState
  active : Option Nat
  replaced : Nat
  localCells : Nat
  nulls : Nat
deriving DecidableEq, Repr

/-- A cell after its lookup, with what it carries (R44). -/
structure HandedCell where
  item : GoodCell
  stream : Nat
  origin : Nat
  cls : StreamClass
  service : Option Nat
deriving DecidableEq, Repr

/-! ## Release Unit and Release Ring (05) -/

/-- The source of a parameter in force (R74): CONFIGURED, or the feed (TIMING for Dn, OVERRIDE for the offset). -/
inductive ParamSource where
  | configured
  | feed
deriving DecidableEq, Repr

/-- The last timing record (R76). -/
structure TimingRecord where
  stream : Nat
  epoch : Epoch
  dn : Nat
  overrides : Nat
  found : Bool
  clamped : Bool
  taken : Option Nat
deriving DecidableEq, Repr

/-- The parameters the Release Unit holds in force (R74). -/
structure ReleaseUnit where
  dn : Nat
  dnSource : ParamSource
  offset : Int
  offsetSource : ParamSource
  lastTiming : Option TimingRecord
deriving DecidableEq, Repr

/-- A valid entry of the Release Ring (R85). -/
structure RingEntry where
  tag : Nat
  stream : Nat
  origin : Nat
  cls : StreamClass
  service : Option Nat
  cell : Bytes
deriving DecidableEq, Repr

/-! ## Assembler and Output Port (06) -/

/-- SITE.CONFIG (R114). -/
structure SiteConfig where
  siteId : Nat
  zone : Nat
  period : Nat
  offset : Int
  latency : Nat
  dn0 : Nat
  holdMax : Nat
  output : Bool
  mute : Bool
  linkTimeout : Nat
deriving DecidableEq, Repr

/-- An entry of the slot plan (06, section 6.3). -/
inductive PlanEntry where
  | null
  | site
  | spare
deriving DecidableEq, Repr

/-- A plan bank (R103); an unlisted position is NULL. -/
structure PlanBank where
  length : Nat
  entries : Table PlanEntry
deriving DecidableEq, Repr

/-- A slot position (R139): an epoch second and a slot within it. -/
structure Pos where
  second : Epoch
  slot : Nat
deriving DecidableEq, Repr

/-- The Assembler (06). The current slot is its slot within the second, the second number of its second (R139), kept while
the epoch is unknown too (R1; log entry 27), and, when it was taken with the epoch known, its slot number (R95). -/
structure Assembler where
  slot : Nat
  slotSecond : Epoch
  slotNumber : Option Nat
  bank0 : PlanBank
  bank1 : PlanBank
  /-- the active bank is bank 1 -/
  activeOne : Bool
  armedSwap : Option Epoch
  carousel : List Bytes
  pointer : Nat
  lastGranted : Nat
deriving DecidableEq, Repr

/-- The Output Port (R111 to R113): the bytes still to be presented and the lines as they stand. Whether cells are being
presented (R116) holds between two cells too (DESIGN CHOICE, log entry 34). -/
structure OutputPort where
  rest : Bytes
  presenting : Bool
  data : Byte
  valid : Bool
  strobe : Bool
  mark : Bool
  permit : Bool
deriving DecidableEq, Repr

/-! ## Clip Store and Reel Table (07) -/

/-- A clip cell record as stored (R121). -/
structure ClipRecord where
  component : Nat
  due : Nat
  clock : Bool
  start : Bool
  stamped : Bool
  payload : Bytes
deriving DecidableEq, Repr

/-- A Clip Directory entry that is OPEN or READY (R119). -/
structure ClipEntry where
  ready : Bool
  base : Nat
  capacity : Nat
  duration : Nat
  clock : Clock
  period : Nat
  written : Nat
  lastDue : Option Nat
  highest : Option Nat
  pins : Nat
deriving DecidableEq, Repr

/-- A step of a reel (R128). -/
inductive ReelStep where
  | play (clip : Nat)
  | loop (count : Nat)
  | next
  | hold
deriving DecidableEq, Repr

/-- A reel that is not empty (R128), with its use count (R133). -/
structure Reel where
  steps : List ReelStep
  uses : Nat
deriving DecidableEq, Repr

/-! ## Insertion Engine (08) -/

/-- The state of an insertion record that is not IDLE (R138). -/
inductive RecordState where
  | armed
  | primed
  | onLocal
  | returning
  | done
deriving DecidableEq, Repr

/-- The result of an insertion (R138). -/
inductive Result where
  | complete
  | cutShort
  | forcedReturn
  | abortedLateCue
  | abortedNoClock
  | abortedNoChannel
  | abortedHost
deriving DecidableEq, Repr

/-- What triggers an insertion (R138); the all-ones cue id is ANY. -/
inductive Trigger where
  | cue (id : BitVec 32)
  | atSlot (second : Epoch) (slot : Nat)
deriving DecidableEq, Repr

/-- The end rule of an insertion (R138). -/
inductive EndRule where
  | reel
  | cue
  | fixed (length : Nat)
deriving DecidableEq, Repr

/-- The cause of a break (R158). -/
inductive BreakCause where
  | endRule
  | host
  | cancelCue
deriving DecidableEq, Repr

/-- An insertion record that is not IDLE (R138), with its return-limit timer (R161). -/
structure Insertion where
  state : RecordState
  result : Option Result
  service : Nat
  trigger : Trigger
  matched : Option (BitVec 32)
  reel : Nat
  endRule : EndRule
  returnLimit : Nat
  splice : Option Pos
  channel : Option Nat
  breakSlot : Option Pos
  brk : Option (BreakCause × Result)
  startSlot : Option Pos
  endSlot : Option Pos
  localCells : Nat
  nulls : Nat
  timer : Option Nat
deriving DecidableEq, Repr

/-- A frame of a loop stack (R151); no remaining count is ENDLESS. -/
structure LoopFrame where
  bodyStart : Nat
  remaining : Option Nat
deriving DecidableEq, Repr

/-- The playback state of a held channel from its splice start on (R151, R174). -/
structure Playback where
  cursor : Nat
  stack : List LoopFrame
  clip : Option Nat
  nextCell : Nat
  clipStart : Option Pos
  clipEnd : Option Pos
  clock : Clock
  offset : Option Clock
  exitPending : Bool
  lastLag : Option Nat
  lagNoticed : Bool
  /-- component k's component-started mark is set when k is listed (R174) -/
  started : List Nat
deriving DecidableEq, Repr

/-- A held play channel (R151): while its record is PRIMED it holds its insertion index alone. -/
structure Channel where
  record : Nat
  play : Option Playback
deriving DecidableEq, Repr

/-! ## Control Link (10) -/

/-- Result codes in the order of the result-code table (10, section 10.3). -/
inductive ResultCode where
  | ok
  | unknown
  | format
  | range
  | busy
  | state
  | duplicate
  | notMapped
  | noService
  | inUse
  | overlap
  | order
  | full
  | emptyClip
  | notReady
  | mismatch
  | balance
  | depth
  | emptyLoop
  | conflict
  | noChannel
  | late
  | untimed
  | pending
  | activeBank
deriving DecidableEq, Repr

/-- The causes of a STEP notice (R23). -/
inductive StepCause where
  | qualified
  | phaseStep
  | referenceLost
  | holdoverExpired
  | resumed
  | sourceDisabled
  | epochMoved
deriving DecidableEq, Repr

/-- The causes of an EPOCH notice (R4, R19). -/
inductive EpochCause where
  | set
  | adopted
  | readopted
deriving DecidableEq, Repr

/-- The reasons of a CUE_IGNORED notice (R146, R148). -/
inductive CueReason where
  | format
  | zone
  | untimed
  | busy
  | far
deriving DecidableEq, Repr

/-- The cause of an INSERT notice (R164, R204). -/
inductive InsertCause where
  | result (r : Result)
  | brk (c : BreakCause)
  | outCue
  | splice
deriving DecidableEq, Repr

/-- The kind and detail of a notice (R192, R204). -/
inductive NoticeDetail where
  | step (old new : StepState) (cause : StepCause) (e : Int)
  | wander (e : Int)
  | steerLimit (e unclamped clamped : Int)
  | intLimit (e unclamped clamped : Int)
  | epoch (cause : EpochCause) (previous : Option Epoch) (second : Epoch)
  | link (link : Link) (up : Bool)
  | feed (restored : Bool) (link : Link)
  | originUnknown (link : Link) (originId : BitVec 32) (label : Nat) (notPermitted : Bool)
  | seqJump (stream : Nat) (link : Link) (previous s : Seq)
  | offsetClamp (stream siteId : Nat) (received clamped : Int)
  | cueIgnored (service : Nat) (cueId : BitVec 32) (kind : Byte) (reason : CueReason) (record : Option Nat)
  | insert (record service : Nat) (old new : RecordState) (cause : InsertCause) (matched : Option (BitVec 32)) (slot : Nat)
  | insertLag (record channel clip cell due lag : Nat)
  | planSwap (bankOne : Bool) (armed begun : Epoch) (late : Bool)
deriving DecidableEq, Repr

/-- A notice record (R192): the creation stamp and second are absent while the epoch is unknown. -/
structure Notice where
  detail : NoticeDetail
  created : Option (Nat × Epoch)
deriving DecidableEq, Repr

/-- The frame receiver (10, section 10.2) with the bytes it holds. -/
inductive FrameReceiver where
  | hunt
  | sync
  | header (held : Bytes)
  | body (header : Bytes) (held : Bytes)
  | crc (header : Bytes) (body : Bytes) (held : Bytes)
  | discard
deriving DecidableEq, Repr

/-- The outstanding reply (R185, R187): none, a request taken and not yet handled, its handling ended, its reply
frame ready. -/
inductive ReplyPhase where
  | none
  | taken (request : Instr)
  | handled (kind tag : BitVec 16) (code : ResultCode) (fields : Bytes)
  | ready (frame : Bytes)
deriving DecidableEq, Repr

/-- The five discard counts (R184). -/
structure DiscardCounts where
  sync : Nat
  length : Nat
  cut : Nat
  crc : Nat
  busy : Nat
deriving DecidableEq, Repr

/-- The Control Link (10). -/
structure ControlLink where
  selected : Bool
  receiver : FrameReceiver
  /-- bytes of the reply still to be shifted out in this transfer (R180) -/
  shiftOut : Bytes
  /-- the byte last shifted out -/
  dataOut : Byte
  reply : ReplyPhase
  notices : List Notice
  noticesLost : Bool
  frameError : Bool
  discards : DiscardCounts
deriving DecidableEq, Repr

/-! ## The machine -/

/-- The whole state of the part. -/
structure State where
  time : TimeUnit
  site : SiteConfig
  linkA : LinkState
  linkB : LinkState
  origins : Table OriginEntry
  streams : Table StreamEntry
  services : Table ServiceEntry
  toRelease : List HandedCell
  toTiming : List HandedCell
  toCue : List HandedCell
  release : ReleaseUnit
  ring : Table RingEntry
  assembler : Assembler
  output : OutputPort
  clips : Table ClipEntry
  clipCells : Table ClipRecord
  reels : Table Reel
  insertions : Table Insertion
  channels : Table Channel
  control : ControlLink
  /-- a second boundary has come and is not yet taken (R1) -/
  secondDue : Bool
  /-- a slot boundary has come and is not yet taken (R95) -/
  slotDue : Bool
  /-- the notices of a second boundary that is still due and whose slot 0 has been taken already; they join the queue
  when SECOND_BOUNDARY is taken (R190, R198; log entry 32) -/
  heldNotices : Option (List Notice)
  /-- the counter with which the free choices are drawn; the model's own (log entry 2) -/
  freeCount : Nat
  /-- the commands that wait, first in first out -/
  pending : List Instr
deriving DecidableEq, Repr

/-- Why the machine stops: never. The manual gives the part no trap and no halt; what cannot be done is refused with a
result code, discarded and counted, or ignored. -/
inductive Fault where
deriving DecidableEq, Repr

/-- Why a command has no meaning. -/
inductive Refusal where
  /-- Raised by an arm of exec whose command has no meaning yet. Safe: the machine stops. No arm raises it now. -/
  | notModelled (mnemonic : String)
deriving DecidableEq, Repr

/-! ## After power-on reset -/

/-- TIME.CONFIG at power-on reset (R21). -/
def TimeConfig.reset : TimeConfig :=
  { sourceEnabled := true, polarity := .rising, kp := 32, ki := 2, window := 10, qualify := 10
    holdoverLimit := 3600, policy := .lockstep }

/-- The Time Unit at power-on reset (R24); the interval counter, which counts from a reference edge that does not
exist, is 0 (DESIGN CHOICE, log entry 10). -/
def TimeUnit.reset : TimeUnit :=
  { tick := 0, second := 0, epochKnown := false, pendingSet := none, stepState := .free, qualifyCount := 0
    mismatchCount := 0, holdover := none, refEdge := false, interval := 0, refTimer := none, refExpired := false
    lastC := none, lastE := none, lastInterval := none, integrator := 0, steering := 0, steerLimit := false
    intLimit := false, glitchCount := 0, longCount := 0, lostCount := 0, phaseCount := 0, config := .reset
    sentWord := 0, sentCount := 1, boundaries := 0 }

/-- A link's counters at 0 (R36). -/
def LinkCounts.zero : LinkCounts :=
  { cells := 0, crcErrors := 0, runts := 0, overlong := 0, badStamps := 0, overruns := 0, unknownOrigin := 0
    streamMisses := 0, firstArrivals := 0, secondArrivals := 0 }

/-- A link receiver at power-on reset (R37, R57) and at restart (R38, R58). -/
def LinkState.reset : LinkState :=
  { delineation := .hunt, handOn := [], up := false, timer := none, counts := .zero, unknownFlag := false }

/-- A stream's counters at 0 (R45). -/
def StreamCounts.zero : StreamCounts :=
  { accepted := 0, duplicate := 0, stale := 0, lost := 0, late := 0, early := 0, collision := 0, misaligned := 0
    untimed := 0, inconsistent := 0 }

/-- SITE.CONFIG at power-on reset (R114). -/
def SiteConfig.reset : SiteConfig :=
  { siteId := 0, zone := 0, period := 625, offset := 0, latency := 0, dn0 := 1000000, holdMax := 10000000
    output := false, mute := true, linkTimeout := 100 }

/-- The Release Unit at power-on reset (R93). -/
def ReleaseUnit.reset : ReleaseUnit :=
  { dn := 1000000, dnSource := .configured, offset := 0, offsetSource := .configured, lastTiming := none }

/-- A plan bank at power-on reset (R117). -/
def PlanBank.reset : PlanBank := { length := 1, entries := [] }

/-- The Assembler at power-on reset (R117); the current slot before the first boundary is slot 0 (DESIGN CHOICE, log
entry 10). -/
def Assembler.reset : Assembler :=
  { slot := 0, slotSecond := 0, slotNumber := none, bank0 := .reset, bank1 := .reset, activeOne := false
    armedSwap := none, carousel := [], pointer := 0, lastGranted := 7 }

/-- The Output Port at power-on reset (R117). -/
def OutputPort.reset : OutputPort :=
  { rest := [], presenting := false, data := 0, valid := false, strobe := false, mark := false, permit := false }

/-- The discard counts at 0 (R184). -/
def DiscardCounts.zero : DiscardCounts := { sync := 0, length := 0, cut := 0, crc := 0, busy := 0 }

/-- The Control Link at power-on reset (R196). -/
def ControlLink.reset : ControlLink :=
  { selected := false, receiver := .hunt, shiftOut := [], dataOut := 0, reply := .none, notices := []
    noticesLost := false, frameError := false, discards := .zero }

/-- The machine right after power-on reset: R24, R37, R57, R72, R93, R117, R136, R165, R179, R196. Tick 0 is a multiple
of P, so the slot boundary at the release of the reset is due (R95, R117; DEDUCED, log entry 6). -/
def State.reset : State :=
  { time := .reset, site := .reset, linkA := .reset, linkB := .reset, origins := [], streams := [], services := []
    toRelease := [], toTiming := [], toCue := [], release := .reset, ring := [], assembler := .reset, output := .reset
    clips := [], clipCells := [], reels := [], insertions := [], channels := [], control := .reset
    secondDue := false, slotDue := true, heldNotices := none, freeCount := 0, pending := [] }

end Sys2Proof.Machine
end

