-- ==== Sys2Proof/Machine/Bytes.lean ====
section
/-! DEFINITION. Bytes, most significant first (R201); the two CRCs (R30, R183); the fields of an emission cell (12,
section 12.2). -/

namespace Sys2Proof.Machine

/-! ## Numbers as bytes -/

/-- The `k` bytes of the number `n`, most significant first, modulo 256^k (R201). -/
def beBytes : Nat → Nat → Bytes
  | 0, _ => []
  | k + 1, n => BitVec.ofNat 8 (n / 256 ^ k) :: beBytes k n

/-- The number a run of bytes spells, most significant first (R201). -/
def beNat (bs : Bytes) : Nat := bs.foldl (fun acc b => acc * 256 + b.toNat) 0

/-- A signed number in `k` bytes, two's complement (R201). -/
def beInt (k : Nat) (n : Int) : Bytes := beBytes k (n % (256 ^ k : Nat)).toNat

/-- The number in `len` bytes from byte `start` on. -/
def fieldNat (bs : Bytes) (start len : Nat) : Nat := beNat ((bs.drop start).take len)

/-- The signed 32-bit number a run of bytes holds from byte `start` on (R201). -/
def fieldInt32 (bs : Bytes) (start : Nat) : Int := (BitVec.ofNat 32 (fieldNat bs start 4)).toInt

/-- The byte at `i`, or 0 past the end. -/
def byteAt (bs : Bytes) (i : Nat) : Byte := bs.getD i 0

/-- A run of bytes with `new` in place of what stood from byte `start` on. -/
def overwrite (bs : Bytes) (start : Nat) (new : Bytes) : Bytes :=
  bs.take start ++ new ++ bs.drop (start + new.length)

/-! ## CRCs -/

/-- One bit into a CRC register: shift left, and subtract the polynomial when the bit leaving differs from the bit fed. -/
def crcBit {w : Nat} (poly reg : BitVec w) (bit : Bool) : BitVec w :=
  if reg.msb == bit then reg <<< 1 else (reg <<< 1) ^^^ poly

/-- One byte into a CRC register, most significant bit first (R30, R183). -/
def crcByte {w : Nat} (poly reg : BitVec w) (b : Byte) : BitVec w :=
  [7, 6, 5, 4, 3, 2, 1, 0].foldl (fun r i => crcBit poly r (b.getLsbD i)) reg

/-- The CRC-32 of a distribution cell (R30): all ones to start, polynomial 0x04C11DB7, inverted at the end. -/
def crc32 (bs : Bytes) : BitVec 32 := ~~~(bs.foldl (crcByte 0x04C11DB7#32) 0xFFFFFFFF#32)

/-- The CRC-16 of a frame (R183): 0xFFFF to start, polynomial 0x1021, no inversion. -/
def crc16 (bs : Bytes) : BitVec 16 := bs.foldl (crcByte 0x1021#16) 0xFFFF#16

/-! ## Emission cells (12, section 12.2) -/

/-- The label: byte 0 and the high half of byte 1. -/
def cellLabel (cell : Bytes) : Nat := (byteAt cell 0).toNat * 16 + (byteAt cell 1).toNat / 16

/-- The continuity count: the low half of byte 1. -/
def cellContinuity (cell : Bytes) : Nat := (byteAt cell 1).toNat % 16

/-- The kind is CLOCK: bit 7 of byte 2. -/
def cellIsClock (cell : Bytes) : Bool := (byteAt cell 2).getLsbD 7

/-- The START flag: bit 6 of byte 2. -/
def cellIsStart (cell : Bytes) : Bool := (byteAt cell 2).getLsbD 6

/-- The payload: the bytes after the 4-byte header. -/
def cellPayload (cell : Bytes) : Bytes := cell.drop 4

/-- The programme-clock value in bytes `start` to `start + 4` of a payload. -/
def payloadClock (payload : Bytes) (start : Nat) : Clock := BitVec.ofNat 40 (fieldNat payload start 5)

/-- A payload with a programme-clock value written into bytes `start` to `start + 4` (R202). -/
def writeClock (payload : Bytes) (start : Nat) (v : Clock) : Bytes := overwrite payload start (beBytes 5 v.toNat)

/-- A cell with its DISC flag set and every other bit as it stands (R99, R202). -/
def withDisc (cell : Bytes) : Bytes := overwrite cell 2 [byteAt cell 2 ||| 0x10#8]

/-- Bit `i` of a byte, set or clear. -/
def flagBit (b : Bool) (i : Nat) : Byte := if b then 1#8 <<< i else 0

/-- An emission cell from its parts, spare bits 0 (R202). -/
def formCell (label continuity : Nat) (clock start stamped disc : Bool) (payload : Bytes) : Bytes :=
  [BitVec.ofNat 8 (label / 16), BitVec.ofNat 8 (label % 16 * 16 + continuity),
    flagBit clock 7 ||| flagBit start 6 ||| flagBit stamped 5 ||| flagBit disc 4, 0] ++ payload

/-- The null cell (00, Cells; R104): label 4095, continuity 0, DATA, no flags, an all-zero payload. -/
def nullCell : Bytes := formCell 4095 0 false false false false (List.replicate 180 0)

/-- A stored clip cell record from the 185 bytes CLIP.WRITE carries (R202); bits 4 to 0 of byte 4 are not stored. -/
def recordOf (component due : Nat) (flags : Byte) (payload : Bytes) : ClipRecord :=
  { component := component, due := due, clock := flags.getLsbD 7, start := flags.getLsbD 6
    stamped := flags.getLsbD 5, payload := payload }

end Sys2Proof.Machine
end

