-- ==== Sys2Proof/Machine/Tables.lean ====
section
/-! DEFINITION. The operations on tables and on the clip area of cell memory: sparse lists of (index, entry) whose
indices rise strictly. Equal tables are equal lists. Every operation keeps the form (Laws/Tables.lean). -/

namespace Sys2Proof.Machine

variable {α : Type}

/-- The canonical form: indices strictly rising. -/
def Table.wf : Table α → Bool
  | [] => true
  | [_] => true
  | (i, _) :: (j, w) :: rest => decide (i < j) && Table.wf ((j, w) :: rest)

/-- What stands at index `k`, if anything does. -/
def Table.get : Table α → Nat → Option α
  | [], _ => none
  | (j, v) :: rest, k => if k = j then some v else Table.get rest k

/-- `v` put at index `k`. -/
def Table.put : Table α → Nat → α → Table α
  | [], k, v => [(k, v)]
  | (j, w) :: rest, k, v =>
    if k < j then (k, v) :: (j, w) :: rest
    else if k = j then (k, v) :: rest
    else (j, w) :: Table.put rest k v

/-- Index `k` emptied. -/
def Table.del : Table α → Nat → Table α
  | [], _ => []
  | (j, w) :: rest, k => if k = j then rest else (j, w) :: Table.del rest k

/-- The entry at `k`, if there is one, changed by `f`. -/
def Table.update (t : Table α) (k : Nat) (f : α → α) : Table α :=
  match t.get k with
  | some v => t.put k (f v)
  | none => t

/-- Every entry changed by `f`. -/
def Table.mapAll (t : Table α) (f : α → α) : Table α := t.map (fun p => (p.1, f p.2))

/-- Every entry changed by `f`, which is told its index. -/
def Table.mapAt (t : Table α) (f : Nat → α → α) : Table α := t.map (fun p => (p.1, f p.1 p.2))

/-- The first entry, in order of index, that satisfies `p`. -/
def Table.firstSuch (t : Table α) (p : Nat → α → Bool) : Option (Nat × α) := t.find? (fun e => p e.1 e.2)

/-- Some entry satisfies `p`. -/
def Table.someSuch (t : Table α) (p : Nat → α → Bool) : Bool := t.any (fun e => p e.1 e.2)

/-- The entries that satisfy `p`. -/
def Table.keep (t : Table α) (p : Nat → α → Bool) : Table α := t.filter (fun e => p e.1 e.2)

/-- `vs` put at indices `k`, `k + 1`, … in order. -/
def Table.putRun : Table α → Nat → List α → Table α
  | t, _, [] => t
  | t, k, v :: vs => Table.putRun (t.put k v) (k + 1) vs

end Sys2Proof.Machine
end

