-- ==== Sys2Proof/Machine/Ops.lean ====
section
/-! DEFINITION. The named operations the blocks share: counters, stamps and positions, links, streams and services by
index, and raising a notice. -/

namespace Sys2Proof.Machine

/-! ## Counters -/

/-- An event counter after one more event: 32 bits, saturating (00, Counters). -/
def bump (n : Nat) : Nat := min (n + 1) Config.counterMax

/-- An event counter after `k` more events. -/
def bumpBy (k n : Nat) : Nat := min (n + k) Config.counterMax

/-- The absolute difference as a signed number placed in the range of one turn: `d` modulo `cycle`, in
`-cycle / 2` to `cycle / 2 - 1` (00, Ticks, seconds and stamps). -/
def wrapSigned (cycle : Nat) (d : Int) : Int :=
  let r := d % (cycle : Int)
  if 2 * r < cycle then r else r - cycle

/-- A number held within two bounds. -/
def clamp (lo hi n : Int) : Int := if n < lo then lo else if hi < n then hi else n

/-! ## Stamps and slots (00, Units and numbers) -/

/-- The modular difference d(a, b) from stamp `b` to stamp `a`. -/
def stampDiff (a b : Nat) : Int := wrapSigned Config.stampCycle ((a : Int) - b)

/-- N, the slots in one second. -/
def SiteConfig.slotsPerSecond (c : SiteConfig) : Nat := Config.ticksPerSecond / c.period

/-- The slots in a stamp cycle. -/
def SiteConfig.slotCycle (c : SiteConfig) : Nat := 64 * c.slotsPerSecond

/-- The wrap span Dw (05, The hold limit). -/
def SiteConfig.wrapSpan (c : SiteConfig) : Nat := c.slotCycle % Config.ringSize * c.period

/-- The hold limit in force (R78). -/
def SiteConfig.holdLimit (c : SiteConfig) : Nat := min c.holdMax (c.wrapSpan - 1)

/-- The site stamp, absent while the epoch is unknown (R1). -/
def TimeUnit.siteStamp (t : TimeUnit) : Option Nat :=
  if t.epochKnown then some (t.second.toNat % 64 * Config.ticksPerSecond + t.tick) else none

/-! ## Slot positions (R139) -/

/-- The slot number of a position. -/
def Pos.number (n : Nat) (p : Pos) : Nat := p.second.toNat % 64 * n + p.slot

/-- The difference of two positions, `p` minus `q`, with `n` slots in a second. -/
def Pos.diff (n : Nat) (p q : Pos) : Int := (p.second - q.second).toInt * n + ((p.slot : Int) - q.slot)

/-- A position moved by a count of slots, carried into the epoch second. -/
def Pos.add (n : Nat) (p : Pos) (k : Int) : Pos :=
  let total := (p.slot : Int) + k
  { second := p.second + BitVec.ofInt 32 (total / n), slot := (total % n).toNat }

/-- Position `p` is reached when the current position is `cur` (R139). -/
def Pos.reached (n : Nat) (p cur : Pos) : Bool := decide (0 ≤ Pos.diff n cur p)

/-- N for the slot period in force. -/
def State.n (s : State) : Nat := s.site.slotsPerSecond

/-- The current position: the position of the Assembler's current slot, while the epoch is known (R139). -/
def State.currentPos (s : State) : Option Pos :=
  if s.time.epochKnown then some { second := s.assembler.slotSecond, slot := s.assembler.slot } else none

/-- The epoch is learned: what the count of seconds called `old` is the epoch second `new`. The current slot, taken before,
keeps its place in the count, since site time is continuous (R4, R19): a slot of the second that has just ended lies in
the epoch second before `new` (DEDUCED, log entry 27). -/
def Assembler.learnEpoch (old new : Epoch) (a : Assembler) : Assembler :=
  { a with slotSecond := a.slotSecond + (new - old) }

/-- The slot number of the current slot, while the epoch is known: the number it was taken with (R95), which a change of P
leaves as it stands until the next slot boundary (R96); a slot that was taken before the epoch was learned has the number
of its position (DEDUCED, log entry 27). -/
def State.slotNumber (s : State) : Option Nat :=
  s.currentPos.map (fun p => s.assembler.slotNumber.getD (p.number s.n))

/-- The current position as a slot number, or 0 while it is absent (log entry 21). -/
def State.currentNumber (s : State) : Nat := s.slotNumber.getD 0

/-! ## Notices (R190, R192) -/

/-- A notice at the tail of the queue, or dropped when the queue holds 64 (R190). -/
def ControlLink.enqueue (notice : Notice) (c : ControlLink) : ControlLink :=
  if c.notices.length < 64 then { c with notices := c.notices ++ [notice] } else { c with noticesLost := true }

/-- A notice as it is created now (R192). -/
def TimeUnit.noticeOf (d : NoticeDetail) (t : TimeUnit) : Notice :=
  { detail := d, created := t.siteStamp.map (fun stamp => (stamp, t.second)) }

/-- Notices created before join the queue now, in their order (R190). -/
def ControlLink.enqueueAll (ns : List Notice) (c : ControlLink) : ControlLink := ns.foldl (fun c x => c.enqueue x) c

/-- A notice created now joins the queue (R190). -/
def State.raise (d : NoticeDetail) (s : State) : State :=
  { s with control := s.control.enqueue (s.time.noticeOf d) }

/-- The notices of a second boundary that wait for SECOND_BOUNDARY join the queue (R198; log entry 32). -/
def State.joinHeld (s : State) : State :=
  { s with
    control := s.control.enqueueAll (s.heldNotices.getD [])
    heldNotices := s.heldNotices.map (fun _ => []) }

/-- A notice of the Time Unit created now joins the queue (R190): the notices of its own second boundary that still wait
join before it, since events at one block are taken in their order (R198; log entry 32). -/
def State.raiseTime (d : NoticeDetail) (s : State) : State := s.joinHeld.raise d

/-! ## Links -/

/-- The other link. -/
def otherLink : Link → Link
  | .a => .b
  | .b => .a

/-- A link's receiver. -/
def State.link (s : State) : Link → LinkState
  | .a => s.linkA
  | .b => s.linkB

/-- A link's receiver replaced. -/
def State.setLink (s : State) (l : Link) (k : LinkState) : State :=
  { s with
    linkA := match l with
      | .a => k
      | .b => s.linkA
    linkB := match l with
      | .a => s.linkB
      | .b => k }

/-- A link's counters changed. -/
def State.countLink (l : Link) (f : LinkCounts → LinkCounts) (s : State) : State :=
  s.setLink l { s.link l with counts := f (s.link l).counts }

/-! ## Streams -/

/-- A count made on a carried stream index: made only when the entry there is valid and still holds the origin index,
label and class the cell was looked up with (R45). -/
def countStream (streams : Table StreamEntry) (index origin label : Nat) (cls : StreamClass)
    (f : StreamCounts → StreamCounts) : Table StreamEntry :=
  match streams.get index with
  | some e =>
    if e.origin = origin ∧ e.label = label ∧ e.cls = cls then streams.put index { e with counts := f e.counts }
    else streams
  | none => streams

/-- One more late cell (R45). -/
def StreamCounts.bumpLate (c : StreamCounts) : StreamCounts := { c with late := bump c.late }

/-- A count on the stream a handed cell carries (R45). -/
def State.countHanded (h : HandedCell) (f : StreamCounts → StreamCounts) (s : State) : State :=
  { s with streams := countStream s.streams h.stream h.origin (cellLabel h.item.cell) h.cls f }

/-! ## Services -/

/-- A component at its reset values (R47). -/
def Component.fresh (label : Nat) : Component :=
  { label := label, continuity := 0, emittedYet := false, awaitDisc := false }

/-- A service's configuration with every runtime field at its reset value (R47). -/
def ServiceEntry.fresh (number : Nat) (labels : List Nat) : ServiceEntry :=
  { number := number, components := labels.map Component.fresh, anchor := none, splice := .network, active := none
    replaced := 0, localCells := 0, nulls := 0 }

/-- A service's component labels. -/
def ServiceEntry.labels (e : ServiceEntry) : List Nat := e.components.map (·.label)

/-- A service's clock label (R46). -/
def ServiceEntry.clockLabel (e : ServiceEntry) : Option Nat := e.components.head?.map (·.label)

/-- A service's splice state; an invalid service is in NETWORK (R47). -/
def State.spliceOf (s : State) (service : Nat) : SpliceState :=
  match s.services.get service with
  | some e => e.splice
  | none => .network

/-- A service changed, if it is valid. -/
def State.updateService (k : Nat) (f : ServiceEntry → ServiceEntry) (s : State) : State :=
  { s with services := s.services.update k f }

/-- Every service clock anchor invalidated (R5, R12, R115, R167). -/
def State.invalidateAnchors (s : State) : State :=
  { s with services := s.services.mapAll (fun e => { e with anchor := none }) }

end Sys2Proof.Machine
end

