-- ==== Sys2Proof/Machine/Flags.lean ====
section
/-! DEFINITION. The conditions, flags and lines that follow from several parts of the state: the feed state, the permit
condition and the permit line, the attention line, the limit flags, the frame-error and notices-lost flags. -/

namespace Sys2Proof.Machine

/-- The feed is LIVE while either link is UP, LOST while both are DOWN (02, section 2.5). -/
def State.feedLive (s : State) : Bool := s.linkA.up || s.linkB.up

/-- The permit condition (R20): output enabled; not both links DOWN under feed-loss mute; SOLO, or INSTEP or HOLDOVER
under LOCKSTEP. -/
def State.permitCondition (s : State) : Bool :=
  s.site.output && !(s.site.mute && !s.feedLive) &&
    (decide (s.time.config.policy = .solo) ||
      (decide (s.time.stepState = .instep) || decide (s.time.stepState = .holdover)))

/-- The permit line deasserted at once when its condition does not hold (R20, R113). -/
def State.dropPermit (s : State) : State :=
  { s with output := { s.output with permit := s.output.permit && s.permitCondition } }

/-- A reply is ready: made ready and not yet read (R180). -/
def ControlLink.replyReady (c : ControlLink) : Bool :=
  match c.reply with
  | .ready _ => true
  | _ => false

/-- The attention line (R189). -/
def State.attention (s : State) : Bool := s.control.replyReady || !s.control.notices.isEmpty

/-- The step state changed, with its STEP notice (R23); e is 0 unless the cause is PHASE_STEP (R204). -/
def State.enterStep (new : StepState) (cause : StepCause) (s : State) : State :=
  (({ s with time := { s.time with stepState := new } } : State).raiseTime
    (.step s.time.stepState new cause 0)).dropPermit

/-- A frame discarded: the frame-error flag set and one discard count raised (R184). -/
def State.discardFrame (count : DiscardCounts → DiscardCounts) (s : State) : State :=
  { s with control := { s.control with frameError := true, discards := count s.control.discards } }

/-- The busy discard of R185. -/
def State.discardBusy (s : State) : State := s.discardFrame (fun d => { d with busy := bump d.busy })

end Sys2Proof.Machine
end

