-- ==== Sys2Proof/Machine/Operands.lean ====
section
/-! DEFINITION. The fields of requests as they are carried (R201): a choice is the position of its value where its rule
first gives the values, a flag is 1 or 0, an absent field follows a presence byte. A reading that answers none is a
field outside its set or range, which the request's own checks refuse with RANGE. -/

namespace Sys2Proof.Machine

/-- A flag or presence byte. -/
def readFlag (b : Byte) : Option Bool := if b = 0 then some false else if b = 1 then some true else none

/-- A choice of two values: the first is position 0. -/
def readChoice {α : Type} (first second : α) (b : Byte) : Option α :=
  if b = 0 then some first else if b = 1 then some second else none

/-- A number within a range, both ends included. -/
def readRange (lo hi n : Nat) : Option Nat := if lo ≤ n ∧ n ≤ hi then some n else none

/-- A signed number within a range, both ends included. -/
def readSigned (lo hi : Int) (n : BitVec 32) : Option Int :=
  if lo ≤ n.toInt ∧ n.toInt ≤ hi then some n.toInt else none

/-- One of the eleven slot periods (00, Slots). -/
def readPeriod (n : Nat) : Option Nat := if n ∈ Config.slotPeriods then some n else none

/-- The permitted links A, B, BOTH (03, section 3.1). -/
def readLinks (b : Byte) : Option PermittedLinks :=
  if b = 0 then some .a else if b = 1 then some .b else if b = 2 then some .both else none

/-- The classes in the order of 03, section 3.3. -/
def readClass (b : Byte) : Option StreamClass :=
  if b = 0 then some .service else if b = 1 then some .shared else if b = 2 then some .cue
  else if b = 3 then some .timing else if b = 4 then some .drop else none

/-- The entries of the slot plan in the order of 06, section 6.3. -/
def readPlanEntry (b : Byte) : Option PlanEntry :=
  if b = 0 then some .null else if b = 1 then some .site else if b = 2 then some .spare else none

/-- The steps of a reel in the order of R128. -/
def readStep (s : StepBody) : Option ReelStep :=
  if s.kind = 0 then some (.play s.clip.toNat) else if s.kind = 1 then some (.loop s.count.toNat)
  else if s.kind = 2 then some .next else if s.kind = 3 then some .hold else none

/-- Every item read, or none when one of them is outside its set. -/
def readAll {α β : Type} (read : α → Option β) : List α → Option (List β)
  | [] => some []
  | x :: xs =>
    match read x, readAll read xs with
    | some y, some ys => some (y :: ys)
    | _, _ => none

/-- TIME.CONFIG's fields against the ranges of R21. -/
def readTimeConfig (b : TimeConfigBody) : Option TimeConfig := do
  let source ← readChoice true false b.source
  let polarity ← readChoice Edge.rising Edge.falling b.polarity
  let window ← readRange 1 1000 b.window.toNat
  let qualify ← readRange 1 255 b.qualify.toNat
  let holdover ← readRange 0 86400 b.holdover.toNat
  let policy ← readChoice StepPolicy.lockstep StepPolicy.solo b.policy
  some { sourceEnabled := source, polarity := polarity, kp := b.kp.toNat, ki := b.ki.toNat, window := window
         qualify := qualify, holdoverLimit := holdover, policy := policy }

/-- SITE.CONFIG's fields against the ranges of R114. -/
def readSiteConfig (b : SiteConfigBody) : Option SiteConfig := do
  let zone ← readRange 0 15 b.zone.toNat
  let period ← readPeriod b.period.toNat
  let offset ← readSigned (-5000000) 5000000 b.offset
  let latency ← readRange 0 2000000 b.latency.toNat
  let dn0 ← readRange 0 9999999 b.dn0.toNat
  let holdMax ← readRange 1000000 15000000 b.holdMax.toNat
  let output ← readChoice true false b.outputEnable
  let mute ← readChoice true false b.feedLossMute
  let timeout ← readRange 1 1000 b.linkTimeout.toNat
  some { siteId := b.siteId.toNat, zone := zone, period := period, offset := offset, latency := latency, dn0 := dn0
         holdMax := holdMax, output := output, mute := mute, linkTimeout := timeout }

/-- A stream entry's configuration as STREAM.SET asks for it. -/
structure StreamRequest where
  index : Nat
  label : Nat
  origin : Nat
  cls : StreamClass
  service : Option Nat
deriving DecidableEq, Repr

/-- SERVICE and CUE streams name a service (03, section 3.3). -/
def StreamClass.needsService : StreamClass → Bool
  | .service => true
  | .cue => true
  | .shared => false
  | .timing => false
  | .drop => false

/-- STREAM.SET's fields against the ranges of R50; a service index given with another class is ignored. -/
def readStreamSet (b : StreamSetBody) : Option StreamRequest := do
  let index ← readRange 0 511 b.index.toNat
  let label ← readRange 0 4094 b.label.toNat
  let origin ← readRange 0 15 b.origin.toNat
  let cls ← readClass b.cls
  if cls.needsService then
    let service ← readRange 0 63 b.service.toNat
    some { index := index, label := label, origin := origin, cls := cls, service := some service }
  else some { index := index, label := label, origin := origin, cls := cls, service := none }

/-- The labels of SERVICE.SET against the ranges of R53: one to four of them, each in 0 to 4,094. -/
def readLabels (labels : List (BitVec 16)) : Option (List Nat) :=
  if 1 ≤ labels.length ∧ labels.length ≤ 4 then
    readAll (fun l => readRange 0 4094 (BitVec.toNat l)) labels
  else none

/-- INSERT.ARM as its fields ask for it (R141). -/
structure ArmRequest where
  record : Nat
  service : Nat
  trigger : Trigger
  reel : Nat
  endRule : EndRule
  returnLimit : Nat
deriving DecidableEq, Repr

/-- The trigger of INSERT.ARM: CUE or AT, and for AT a slot within the second in 0 to N - 1 (R141). -/
def readTrigger (n : Nat) (b : InsertArmBody) : Option Trigger :=
  if b.trigger = 0 then some (.cue b.cueId)
  else if b.trigger = 1 ∧ b.slot.toNat < n then some (.atSlot b.second b.slot.toNat)
  else none

/-- The end rule of INSERT.ARM: REEL, CUE, or FIXED with a length of at least 1 (R141). -/
def readEndRule (b : InsertArmBody) : Option EndRule :=
  if b.endRule = 0 then some .reel else if b.endRule = 1 then some .cue
  else if b.endRule = 2 ∧ 1 ≤ b.length.toNat then some (.fixed b.length.toNat) else none

/-- The return limit of INSERT.ARM: 20,000,000 ticks when absent (R141). -/
def readLimit (b : InsertArmBody) : Option Nat := do
  let present ← readFlag b.limitPresent
  if present then readRange 1000000 50000000 b.limit.toNat else some 20000000

/-- INSERT.ARM's fields against the ranges of R141's first check. -/
def readInsertArm (n : Nat) (b : InsertArmBody) : Option ArmRequest := do
  let record ← readRange 0 15 b.record.toNat
  let service ← readRange 0 63 b.service.toNat
  let trigger ← readTrigger n b
  let reel ← readRange 0 31 b.reel.toNat
  let endRule ← readEndRule b
  let limit ← readLimit b
  some { record := record, service := service, trigger := trigger, reel := reel, endRule := endRule
         returnLimit := limit }

/-- A clip cell record of CLIP.WRITE: its component in 0 to 3 (R123); its kind is bit 7 of its flags (R202). -/
def readRecord (r : RecordBody) : Option ClipRecord := do
  let component ← readRange 0 3 r.component.toNat
  some (recordOf component r.due.toNat r.flags r.payload)

end Sys2Proof.Machine
end

