-- ==== Sys2Proof/Machine/Frames.lean ====
section
/-! DEFINITION. What the Control Link puts into a reply: fields at the widths of R201, the status summary and the frame
of R187, notice records (R204); and the one operation by which a request is handled and answered (R185 to R187). -/

namespace Sys2Proof.Machine

/-! ## Fields (R201) -/

/-- A flag byte. -/
def encFlag (b : Bool) : Bytes := [if b then 1 else 0]

/-- A field that may be absent: a presence byte, then the value's `k` bytes, zeros when absent. -/
def encOpt {α : Type} (k : Nat) (enc : α → Bytes) : Option α → Bytes
  | some v => 1 :: enc v
  | none => 0 :: List.replicate k 0

/-- An optional number in `k` bytes. -/
def encOptNat (k : Nat) : Option Nat → Bytes := encOpt k (beBytes k)

/-- A list of varying length: its count in `k` bytes, then its items. -/
def encList {α : Type} (k : Nat) (enc : α → Bytes) (xs : List α) : Bytes := beBytes k xs.length ++ xs.flatMap enc

/-- A position of a choice in its list, for a Bool whose `true` stands first. -/
def encFirst (b : Bool) : Bytes := [if b then 0 else 1]

def StepState.code : StepState → Nat
  | .free => 0
  | .acquire => 1
  | .instep => 2
  | .holdover => 3

def StepPolicy.code : StepPolicy → Nat
  | .lockstep => 0
  | .solo => 1

def Edge.code : Edge → Nat
  | .rising => 0
  | .falling => 1

def Link.code : Link → Nat
  | .a => 0
  | .b => 1

def PermittedLinks.code : PermittedLinks → Nat
  | .a => 0
  | .b => 1
  | .both => 2

def StreamClass.code : StreamClass → Nat
  | .service => 0
  | .shared => 1
  | .cue => 2
  | .timing => 3
  | .drop => 4

def SpliceState.code : SpliceState → Nat
  | .network => 0
  | .primed => 1
  | .onLocal => 2
  | .returning => 3

def ParamSource.code : ParamSource → Nat
  | .configured => 0
  | .feed => 1

def PlanEntry.code : PlanEntry → Nat
  | .null => 0
  | .site => 1
  | .spare => 2

/-- Record states numbered in the order of R138, IDLE 0 to DONE 5 (R204). -/
def RecordState.code : RecordState → Nat
  | .armed => 1
  | .primed => 2
  | .onLocal => 3
  | .returning => 4
  | .done => 5

/-- The results numbered in the order of R138 (R204). -/
def Result.code : Result → Nat
  | .complete => 0
  | .cutShort => 1
  | .forcedReturn => 2
  | .abortedLateCue => 3
  | .abortedNoClock => 4
  | .abortedNoChannel => 5
  | .abortedHost => 6

def BreakCause.code : BreakCause → Nat
  | .endRule => 0
  | .host => 1
  | .cancelCue => 2

/-- Result codes numbered in the order of their table (12, section 12.1). -/
def ResultCode.code : ResultCode → Nat
  | .ok => 0
  | .unknown => 1
  | .format => 2
  | .range => 3
  | .busy => 4
  | .state => 5
  | .duplicate => 6
  | .notMapped => 7
  | .noService => 8
  | .inUse => 9
  | .overlap => 10
  | .order => 11
  | .full => 12
  | .emptyClip => 13
  | .notReady => 14
  | .mismatch => 15
  | .balance => 16
  | .depth => 17
  | .emptyLoop => 18
  | .conflict => 19
  | .noChannel => 20
  | .late => 21
  | .untimed => 22
  | .pending => 23
  | .activeBank => 24

/-- The causes of STEP in the order of R23. -/
def StepCause.code : StepCause → Nat
  | .qualified => 0
  | .phaseStep => 1
  | .referenceLost => 2
  | .holdoverExpired => 3
  | .resumed => 4
  | .sourceDisabled => 5
  | .epochMoved => 6

def EpochCause.code : EpochCause → Nat
  | .set => 0
  | .adopted => 1
  | .readopted => 2

def CueReason.code : CueReason → Nat
  | .format => 0
  | .zone => 1
  | .untimed => 2
  | .busy => 3
  | .far => 4

/-- The INSERT cause byte: the results 0 to 6, END_RULE 7, HOST 8, CANCEL_CUE 9, OUT_CUE 10, SPLICE 11 (R204). -/
def InsertCause.code : InsertCause → Nat
  | .result r => r.code
  | .brk c => 7 + c.code
  | .outCue => 10
  | .splice => 11

/-! ## Notice records (R204) -/

/-- The number of a notice kind: its place in the notice-kind table, STEP 0 to PLAN_SWAP 13. -/
def NoticeDetail.kind : NoticeDetail → Nat
  | .step .. => 0
  | .wander .. => 1
  | .steerLimit .. => 2
  | .intLimit .. => 3
  | .epoch .. => 4
  | .link .. => 5
  | .feed .. => 6
  | .originUnknown .. => 7
  | .seqJump .. => 8
  | .offsetClamp .. => 9
  | .cueIgnored .. => 10
  | .insert .. => 11
  | .insertLag .. => 12
  | .planSwap .. => 13

/-- The detail of a notice, field by field as R204 lists them. -/
def NoticeDetail.bytes : NoticeDetail → Bytes
  | .step old new cause e => beBytes 1 old.code ++ beBytes 1 new.code ++ beBytes 1 cause.code ++ beInt 4 e
  | .wander e => beInt 4 e
  | .steerLimit e u c => beInt 4 e ++ beInt 4 u ++ beInt 4 c
  | .intLimit e u c => beInt 4 e ++ beInt 4 u ++ beInt 4 c
  | .epoch cause previous second =>
    beBytes 1 cause.code ++ encOptNat 4 (previous.map BitVec.toNat) ++ beBytes 4 second.toNat
  | .link l up => beBytes 1 (Link.code l) ++ encFirst up ++ encFlag up
  | .feed restored l => encFlag restored ++ beBytes 1 (Link.code l)
  | .originUnknown l id label notPermitted =>
    beBytes 1 (Link.code l) ++ beBytes 4 id.toNat ++ beBytes 2 label ++ encFlag notPermitted
  | .seqJump stream l previous s =>
    beBytes 2 stream ++ beBytes 1 (Link.code l) ++ beBytes 4 previous.toNat ++ beBytes 4 s.toNat
  | .offsetClamp stream siteId received clamped =>
    beBytes 2 stream ++ beBytes 2 siteId ++ beInt 4 received ++ beInt 4 clamped
  | .cueIgnored service cueId kind reason record =>
    beBytes 1 service ++ beBytes 4 cueId.toNat ++ [kind] ++ beBytes 1 reason.code ++ beBytes 1 (record.getD 255)
  | .insert record service old new cause matched slot =>
    beBytes 1 record ++ beBytes 1 service ++ beBytes 1 (old.code * 16 + new.code) ++ beBytes 1 cause.code ++
      beBytes 4 ((matched.map BitVec.toNat).getD 4294967295) ++ beBytes 3 slot ++ [0]
  | .insertLag record channel clip cell due lag =>
    beBytes 1 record ++ beBytes 1 channel ++ beBytes 1 clip ++ beBytes 3 cell ++ beBytes 3 due ++ beBytes 3 lag
  | .planSwap bankOne armed begun late =>
    encFlag bankOne ++ beBytes 4 armed.toNat ++ beBytes 4 begun.toNat ++ encFlag late

/-- A notice record in its 23 bytes (R204). -/
def Notice.bytes (n : Notice) : Bytes :=
  let d := n.detail.bytes
  beBytes 1 n.detail.kind ++
    (match n.created with
      | some (stamp, second) => 1 :: (beBytes 4 stamp ++ beBytes 4 second.toNat)
      | none => List.replicate 9 0) ++
    beBytes 1 d.length ++ d ++ List.replicate (12 - d.length) 0

/-! ## Replies (R187) -/

/-- The status summary (R187, 12 section 12.4): step state, permit and flags, notices in the queue, 0. -/
def State.summary (s : State) : Bytes :=
  beBytes 1 s.time.stepState.code ++
    [flagBit s.output.permit 0 ||| flagBit s.control.noticesLost 1 ||| flagBit s.control.frameError 2] ++
    beBytes 1 s.control.notices.length ++ [0]

/-- A frame round a body (12, section 12.4). -/
def frameOf (kind tag : BitVec 16) (body : Bytes) : Bytes :=
  let inner := beBytes 2 body.length ++ beBytes 2 kind.toNat ++ beBytes 2 tag.toNat ++ body
  [0xB3, 0x5D] ++ inner ++ beBytes 2 (crc16 inner).toNat

/-- A reply made ready (R187): the frame is formed with the summary as it stands, and each flag it reports as set is
cleared. -/
def State.readyReply (kind tag : BitVec 16) (code : ResultCode) (fields : Bytes) (s : State) : State :=
  { s with control := { s.control with
      reply := .ready (frameOf (kind + 0x8000#16) tag (beBytes 1 code.code ++ s.summary ++ fields))
      noticesLost := false
      frameError := false } }

/-! ## Handling a request (R185, R186) -/

/-- What a block answers: OK with the state it leaves and the reply's fields, or a refusal, which changes no state. -/
inductive Answer where
  | ok (s : State) (fields : Bytes)
  | refuse (code : ResultCode)
deriving DecidableEq, Repr

/-- The end of a request's handling: its reply waits to be made ready (R187). A refusal changes no other state and
carries no fields. -/
def State.answered (kind tag : BitVec 16) (s : State) : Answer → State
  | .ok s' fields => { s' with control := { s'.control with reply := .handled kind tag .ok fields } }
  | .refuse code => { s with control := { s.control with reply := .handled kind tag code [] } }

/-- The request `i` may be handled now: its frame has been taken and waits, or no reply is outstanding, so that its
frame is taken now (R185; log entry 7). -/
def State.mayHandle (i : Instr) (s : State) : Bool :=
  match s.control.reply with
  | .none => true
  | .taken j => decide (j = i)
  | .handled .. => false
  | .ready .. => false

/-- A request command (R185, R186): a busy discard while another reply is outstanding; FORMAT when its fields cannot be
carried in a frame of its kind (log entry 22); else handled by its block as one event. -/
def State.request (i : Instr) (kind tag : BitVec 16) (handle : State → Answer) (s : State) : State :=
  if s.mayHandle i then
    if i.wellFormed then s.answered kind tag (handle s) else s.answered kind tag (.refuse .format)
  else s.discardBusy

/-- A request whose reply is made ready in the event that handles it: NOTICE.FETCH (R189), STATUS.READ (R193) and
SYSTEM.RESTART (R195); DEDUCED, log entry 8. -/
def State.requestReady (i : Instr) (kind tag : BitVec 16) (handle : State → State × Bytes) (s : State) : State :=
  if s.mayHandle i then
    let r := handle s
    r.1.readyReply kind tag .ok r.2
  else s.discardBusy

end Sys2Proof.Machine
end

