-- ==== Sys2Proof/Machine/ClipStore.lean ====
section
/-! DEFINITION. The Clip Store and the Reel Table (07): clips and their extents, the records in the clip area of cell
memory, reels and their structure, pin and use counts, and the requests CLIP.* and REEL.*. -/

namespace Sys2Proof.Machine

/-! ## The clip area of cell memory (07, section 7.1) -/

/-- Cells of the clip area. -/
def clipAreaCells : Nat := 4194304

/-- What cell `n` of the clip area holds: the record stored there last, or a free value while none has been (R136; log
entry 14). -/
def State.clipRecord (n : Nat) (s : State) : ClipRecord :=
  match s.clipCells.get n with
  | some r => r
  | none =>
    recordOf (Config.unwrittenCellByte n 0).toNat
      (beNat ((List.range' 1 3).map (Config.unwrittenCellByte n))) (Config.unwrittenCellByte n 4)
      ((List.range' 5 180).map (Config.unwrittenCellByte n))

/-- Two extents have a cell in common (R120). -/
def extentsOverlap (base1 cap1 base2 cap2 : Nat) : Bool :=
  decide (base1 < base2 + cap2) && decide (base2 < base1 + cap1)

/-! ## Clips (R122 to R127) -/

/-- The entry a CLIP.DEFINE asks for, when its fields lie in their ranges (R122); the clip index and the base clock fill
their fields. -/
def readClipDefine (b : ClipDefineBody) : Option ClipEntry := do
  let base ← readRange 0 4194303 b.base.toNat
  let capacity ← readRange 1 (clipAreaCells - base) b.capacity.toNat
  let duration ← readRange 1 16777215 b.duration.toNat
  let period ← readPeriod b.period.toNat
  some { ready := false, base := base, capacity := capacity, duration := duration, clock := b.clock, period := period
         written := 0, lastDue := none, highest := none, pins := 0 }

/-- CLIP.DEFINE at the Clip Store (R122). -/
def handleClipDefine (b : ClipDefineBody) (s : State) : Answer :=
  match readClipDefine b with
  | none => .refuse .range
  | some new =>
    if (s.clips.get b.clip.toNat).isSome then .refuse .busy
    else if s.clips.someSuch (fun _ e => extentsOverlap new.base new.capacity e.base e.capacity) then .refuse .overlap
    else .ok { s with clips := s.clips.put b.clip.toNat new } []

/-- The due offsets do not decrease from one record to the next, starting from `last` when one is held (R123). -/
def dueInOrder : Option Nat → List ClipRecord → Bool
  | _, [] => true
  | none, r :: rs => dueInOrder (some r.due) rs
  | some last, r :: rs => decide (last ≤ r.due) && dueInOrder (some r.due) rs

/-- The highest component once records are written (R124). -/
def highestComponent (old : Option Nat) (records : List ClipRecord) : Option Nat :=
  records.foldl (fun h r => some (max (h.getD 0) r.component)) old

/-- A directory entry after an accepted CLIP.WRITE (R124). -/
def ClipEntry.afterWrite (e : ClipEntry) (records : List ClipRecord) : ClipEntry :=
  { e with
    written := e.written + records.length
    lastDue := match records.getLast? with
      | some r => some r.due
      | none => e.lastDue
    highest := highestComponent e.highest records }

/-- CLIP.WRITE at the Clip Store (R123, R124). -/
def handleClipWrite (clip first : Nat) (bodies : List RecordBody) (s : State) : Answer :=
  match readAll readRecord bodies with
  | none => .refuse .range
  | some records =>
    if records.length < 1 ∨ 8 < records.length then .refuse .range
    else
      match s.clips.get clip with
      | none => .refuse .state
      | some e =>
        if e.ready then .refuse .state
        else if records.any (fun r => decide (e.duration ≤ r.due)) then .refuse .range
        else if first ≠ e.written ∨ dueInOrder e.lastDue records = false then .refuse .order
        else if e.capacity < e.written + records.length then .refuse .full
        else .ok { s with
          clipCells := s.clipCells.putRun (e.base + e.written) records
          clips := s.clips.put clip (e.afterWrite records) } []

/-- CLIP.CLOSE at the Clip Store (R125). -/
def handleClipClose (clip : Nat) (s : State) : Answer :=
  match s.clips.get clip with
  | none => .refuse .state
  | some e =>
    if e.ready then .refuse .state
    else if e.written < 1 then .refuse .emptyClip
    else .ok { s with clips := s.clips.put clip { e with ready := true } } []

/-- A clip's pin count; an EMPTY clip's is 0 (R119, R127). -/
def State.pins (clip : Nat) (s : State) : Nat :=
  match s.clips.get clip with
  | some e => e.pins
  | none => 0

/-- CLIP.DELETE at the Clip Store (R126). -/
def handleClipDelete (clip : Nat) (s : State) : Answer :=
  if s.pins clip ≠ 0 then .refuse .inUse else .ok { s with clips := s.clips.del clip } []

/-- A clip's state in the order EMPTY, OPEN, READY (R119). -/
def clipStateCode : Option ClipEntry → Nat
  | none => 0
  | some e => if e.ready then 2 else 1

/-- CLIP.READ at the Clip Store (R127). The written count, a kind R201 does not name, is carried in the fewest bytes that
hold 0 to 4,194,304 (DEDUCED, log entry 18). -/
def handleClipRead (clip : Nat) (s : State) : Answer :=
  let e := s.clips.get clip
  .ok s (beBytes 1 (clipStateCode e) ++ encOptNat 4 (e.map ClipEntry.base) ++ encOptNat 4 (e.map ClipEntry.capacity) ++
    encOptNat 3 (e.map ClipEntry.duration) ++ encOptNat 5 (e.map (fun x => x.clock.toNat)) ++
    encOptNat 4 (e.map ClipEntry.period) ++ encOptNat 3 (e.map ClipEntry.written) ++
    encOptNat 3 (e.bind ClipEntry.lastDue) ++ encOptNat 1 (e.bind ClipEntry.highest) ++ beBytes 1 (s.pins clip))

/-! ## Reels (R128 to R132) -/

/-- The steps of a reel; an unlisted reel is empty (R128). -/
def State.reelSteps (reel : Nat) (s : State) : List ReelStep :=
  match s.reels.get reel with
  | some r => r.steps
  | none => []

/-- A reel's use count. -/
def State.reelUses (reel : Nat) (s : State) : Nat :=
  match s.reels.get reel with
  | some r => r.uses
  | none => 0

/-- The steps are balanced, with `d` groups open before them (R129). -/
def balanced : List ReelStep → Nat → Bool
  | [], d => d == 0
  | .loop _ :: rest, d => balanced rest (d + 1)
  | .next :: rest, d => decide (0 < d) && balanced rest (d - 1)
  | .play _ :: rest, d => balanced rest d
  | .hold :: rest, d => balanced rest d

/-- No step has a depth greater than 4, with `d` groups open before the steps (R129, R130). -/
def depthFits : List ReelStep → Nat → Bool
  | [], _ => true
  | .loop _ :: rest, d => decide (d + 1 ≤ 4) && depthFits rest (d + 1)
  | .next :: rest, d => decide (d ≤ 4) && depthFits rest (d - 1)
  | .play _ :: rest, d => decide (d ≤ 4) && depthFits rest d
  | .hold :: rest, d => decide (d ≤ 4) && depthFits rest d

/-- The innermost open group has something to play or hold. -/
def markFilled : List Bool → List Bool
  | [] => []
  | _ :: outer => true :: outer

/-- Every LOOP body holds a PLAY or HOLD step, directly or within a nested group (R130); the second argument says of each
open group, innermost first, whether it has one yet. -/
def bodiesFilled : List ReelStep → List Bool → Bool
  | [], _ => true
  | .loop _ :: rest, open_ => bodiesFilled rest (false :: open_)
  | .next :: rest, [] => bodiesFilled rest []
  | .next :: rest, filled :: outer => filled && bodiesFilled rest (markFilled outer)
  | .play _ :: rest, open_ => bodiesFilled rest (markFilled open_)
  | .hold :: rest, open_ => bodiesFilled rest (markFilled open_)

/-- The closing step of the group whose body begins the list, numbered `i`, with `d` nested groups open (R129). -/
def closingStep : List ReelStep → Nat → Nat → Option Nat
  | [], _, _ => none
  | .next :: _, i, 0 => some i
  | .next :: rest, i, d + 1 => closingStep rest (i + 1) d
  | .loop _ :: rest, i, d => closingStep rest (i + 1) (d + 1)
  | .play _ :: rest, i, d => closingStep rest (i + 1) d
  | .hold :: rest, i, d => closingStep rest (i + 1) d

/-- For each LOOP step in order, the number of its closing step (R132). -/
def closingSteps : List ReelStep → Nat → List Nat
  | [], _ => []
  | .loop _ :: rest, i => (closingStep rest (i + 1) 0).toList ++ closingSteps rest (i + 1)
  | .next :: rest, i => closingSteps rest (i + 1)
  | .play _ :: rest, i => closingSteps rest (i + 1)
  | .hold :: rest, i => closingSteps rest (i + 1)

/-- REEL.SET at the Reel Table (R130, R131). -/
def handleReelSet (reel : Nat) (bodies : List StepBody) (s : State) : Answer :=
  match readRange 0 31 reel, readAll readStep bodies with
  | some k, some steps =>
    if 24 < steps.length then .refuse .range
    else if balanced steps 0 = false then .refuse .balance
    else if depthFits steps 0 = false then .refuse .depth
    else if bodiesFilled steps [] = false then .refuse .emptyLoop
    else if s.reelUses k ≠ 0 then .refuse .inUse
    else if steps.isEmpty then .ok { s with reels := s.reels.del k } []
    else .ok { s with reels := s.reels.put k { steps := steps, uses := 0 } } []
  | _, _ => .refuse .range

/-- A step of a reel as a reply carries it: as REEL.SET does (log entries 17, 18). -/
def ReelStep.fields : ReelStep → Bytes
  | .play clip => [0, BitVec.ofNat 8 clip, 0]
  | .loop count => [1, 0, BitVec.ofNat 8 count]
  | .next => [2, 0, 0]
  | .hold => [3, 0, 0]

/-- REEL.READ at the Reel Table (R132). -/
def handleReelRead (reel : Nat) (s : State) : Answer :=
  if 31 < reel then .refuse .range
  else
    let steps := s.reelSteps reel
    .ok s (encList 1 ReelStep.fields steps ++ encList 1 (beBytes 1) (closingSteps steps 0) ++
      beBytes 1 (s.reelUses reel))

/-! ## Holds (R133, R134) -/

/-- A PLAY step of the list names the clip. -/
def namesClip (steps : List ReelStep) (clip : Nat) : Bool := steps.any (fun step => decide (step = .play clip))

/-- A reel's use count and the pin count of each distinct clip its PLAY steps name, changed alike (R133). -/
def State.changeHolds (reel : Nat) (f : Nat → Nat) (s : State) : State :=
  let steps := s.reelSteps reel
  { s with
    reels := s.reels.update reel (fun r => { r with uses := f r.uses })
    clips := s.clips.mapAt (fun k e => if namesClip steps k then { e with pins := f e.pins } else e) }

/-! ## Meanings -/

/-- CLIP.DEFINE (R122). -/
def execClipDefine (tag : BitVec 16) (body : ClipDefineBody) (s : State) : Host.Outcome State Fault Refusal :=
  .next (s.request (.clipDefine tag body) 0x0501#16 tag (handleClipDefine body))

/-- CLIP.WRITE (R123). -/
def execClipWrite (tag : BitVec 16) (clip : Byte) (first : BitVec 32) (records : List RecordBody) (s : State) :
    Host.Outcome State Fault Refusal :=
  .next (s.request (.clipWrite tag clip first records) 0x0502#16 tag
    (handleClipWrite clip.toNat first.toNat records))

/-- CLIP.CLOSE (R125). -/
def execClipClose (tag : BitVec 16) (clip : Byte) (s : State) : Host.Outcome State Fault Refusal :=
  .next (s.request (.clipClose tag clip) 0x0503#16 tag (handleClipClose clip.toNat))

/-- CLIP.DELETE (R126). -/
def execClipDelete (tag : BitVec 16) (clip : Byte) (s : State) : Host.Outcome State Fault Refusal :=
  .next (s.request (.clipDelete tag clip) 0x0504#16 tag (handleClipDelete clip.toNat))

/-- CLIP.READ (R127). -/
def execClipRead (tag : BitVec 16) (clip : Byte) (s : State) : Host.Outcome State Fault Refusal :=
  .next (s.request (.clipRead tag clip) 0x0505#16 tag (handleClipRead clip.toNat))

/-- REEL.SET (R130). -/
def execReelSet (tag : BitVec 16) (reel : Byte) (steps : List StepBody) (s : State) :
    Host.Outcome State Fault Refusal :=
  .next (s.request (.reelSet tag reel steps) 0x0506#16 tag (handleReelSet reel.toNat steps))

/-- REEL.READ (R132). -/
def execReelRead (tag : BitVec 16) (reel : Byte) (s : State) : Host.Outcome State Fault Refusal :=
  .next (s.request (.reelRead tag reel) 0x0507#16 tag (handleReelRead reel.toNat))

end Sys2Proof.Machine
end

