-- ==== Sys2Proof/Machine/Links.lean ====
section
/-! DEFINITION. The Link Receivers (02): delineation, the checks on a complete cell, the hand-on queue, link state, the
link timer and the feed state. -/

namespace Sys2Proof.Machine

/-! ## Link and feed state (R33 to R35) -/

/-- Ticks in the link timeout in force (R33). -/
def State.linkTicks (s : State) : Nat := s.site.linkTimeout * 10000

/-- The FEED notice of a link change: raised when the other link is DOWN (R35). -/
def State.feedNotice (restored : Bool) (l : Link) (s : State) : State :=
  if (s.link (otherLink l)).up then s else s.raise (.feed restored l)

/-- A good cell acts on its link (R34): a DOWN link becomes UP; the timer is started again either way. -/
def State.linkGood (l : Link) (s : State) : State :=
  if (s.link l).up then s.setLink l { s.link l with timer := some s.linkTicks }
  else
    ((s.setLink l { s.link l with up := true, timer := some s.linkTicks }).raise (.link l true)).feedNotice true l

/-- The link timer's expiry (R33). -/
def State.linkExpire (l : Link) (s : State) : State :=
  (((s.setLink l { s.link l with up := false, timer := none }).raise (.link l false)).feedNotice false l).dropPermit

/-! ## A complete cell (R28, R30 to R32) -/

/-- The bytes the CRC covers: wrapper bytes 0 to 11, then the 184 bytes of the emission cell (R30). -/
def crcCover (bytes : Bytes) : Bytes := bytes.take 12 ++ bytes.drop 16

/-- A good cell with what is handed on (02, section 2.3); its arrival is now (R28). -/
def State.goodCell (l : Link) (bytes : Bytes) (s : State) : GoodCell :=
  { link := l, originId := BitVec.ofNat 32 (fieldNat bytes 0 4), seq := BitVec.ofNat 32 (fieldNat bytes 4 4)
    headStamp := fieldNat bytes 8 4, cell := bytes.drop 16, arrivalTick := s.time.tick
    arrivalStamp := s.time.siteStamp, arrivalBoundaries := s.time.boundaries }

/-- A good cell joins the tail of its link's hand-on queue, or is an overrun when the queue holds 4 (R32). -/
def State.joinHandOn (l : Link) (c : GoodCell) (s : State) : State :=
  if (s.link l).handOn.length < 4 then s.setLink l { s.link l with handOn := (s.link l).handOn ++ [c] }
  else s.countLink l (fun k => { k with overruns := bump k.overruns })

/-- A complete cell counted and checked, CRC first (R28, R30, R31). -/
def State.completeCell (l : Link) (bytes : Bytes) (s : State) : State :=
  let s := s.countLink l (fun k => { k with cells := bump k.cells })
  if (crc32 (crcCover bytes)).toNat ≠ fieldNat bytes 12 4 then
    s.countLink l (fun k => { k with crcErrors := bump k.crcErrors })
  else if Config.stampCycle ≤ fieldNat bytes 8 4 then
    s.countLink l (fun k => { k with badStamps := bump k.badStamps })
  else (s.linkGood l).joinHandOn l (s.goodCell l bytes)

/-! ## Delineation (R26, R27, R29) -/

/-- The delineation state replaced. -/
def State.setDelineation (l : Link) (d : Delineation) (s : State) : State :=
  s.setLink l { s.link l with delineation := d }

/-- A byte taken with start-of-cell (R26): it begins a new cell; a cell in progress ends as a runt (R27). -/
def State.takeStart (l : Link) (b : Byte) (s : State) : State :=
  match (s.link l).delineation with
  | .assembling _ =>
    (s.countLink l (fun k => { k with runts := bump k.runts })).setDelineation l (.assembling [b])
  | .hunt => s.setDelineation l (.assembling [b])
  | .trailing _ => s.setDelineation l (.assembling [b])

/-- A byte taken with start-of-cell clear (R26): added to the cell in progress, which is complete at its 200th byte
(R28); the first extra byte after a complete cell makes it overlong (R29); ignored in HUNT. -/
def State.takeData (l : Link) (b : Byte) (s : State) : State :=
  match (s.link l).delineation with
  | .hunt => s
  | .assembling taken =>
    if taken.length + 1 < 200 then s.setDelineation l (.assembling (taken ++ [b]))
    else (s.setDelineation l (.trailing false)).completeCell l (taken ++ [b])
  | .trailing true => s
  | .trailing false =>
    (s.countLink l (fun k => { k with overlong := bump k.overlong })).setDelineation l (.trailing true)

/-- The link's next data byte would complete a cell. -/
def LinkState.lastByteDue (k : LinkState) : Bool :=
  match k.delineation with
  | .assembling taken => decide (200 ≤ taken.length + 1)
  | .hunt => false
  | .trailing _ => false

/-- A cell is in progress. -/
def LinkState.inCell (k : LinkState) : Bool :=
  match k.delineation with
  | .assembling _ => true
  | .hunt => false
  | .trailing _ => false

/-! ## Meanings -/

/-- LINK_BYTE (R26): a byte taken on a link, whatever it brings about. -/
def execLinkByte (link : Link) (startOfCell : Bool) (byte : Byte) (s : State) : Host.Outcome State Fault Refusal :=
  .next (if startOfCell then s.takeStart link byte else s.takeData link byte)

/-- CELL_ARRIVAL (R28): the byte that completes a cell. -/
def execCellArrival (link : Link) (byte : Byte) (s : State) : Host.Outcome State Fault Refusal :=
  .next (if (s.link link).lastByteDue then s.takeData link byte else s)

/-- RUNT (R27): a start-of-cell that meets a cell in progress. -/
def execRunt (link : Link) (byte : Byte) (s : State) : Host.Outcome State Fault Refusal :=
  .next (if (s.link link).inCell then s.takeStart link byte else s)

/-- OVERLONG (R29): the first extra byte after a complete cell. -/
def execOverlong (link : Link) (byte : Byte) (s : State) : Host.Outcome State Fault Refusal :=
  .next (if (s.link link).delineation = .trailing false then s.takeData link byte else s)

/-- LINK_TIMEOUT (R33): the link timer has run out. -/
def execLinkTimeout (link : Link) (s : State) : Host.Outcome State Fault Refusal :=
  .next (if (s.link link).timer = some 0 then s.linkExpire link else s)

end Sys2Proof.Machine
end

