-- ==== Sys2Proof/Machine/Classifier.lean ====
section
/-! DEFINITION. The Classifier (03) and the Merge Unit (04): the two lookups, the merge of a cell against its record, the
hand-on by class, and the requests that write and read the Origin, Stream and Service Tables. -/

namespace Sys2Proof.Machine

/-! ## Lookup (R40 to R42) -/

/-- The permitted links include the link (R40). -/
def PermittedLinks.includes : PermittedLinks → Link → Bool
  | .both, _ => true
  | .a, .a => true
  | .a, .b => false
  | .b, .a => false
  | .b, .b => true

/-- The stage-1 lookup (R40): the index of the valid entry with the cell's origin id that permits its link. -/
def originLookup (origins : Table OriginEntry) (id : BitVec 32) (l : Link) : Option Nat :=
  (origins.firstSuch (fun _ e => decide (e.originId = id) && e.links.includes l)).map Prod.fst

/-- Some valid entry holds the origin id (R41). -/
def originKnown (origins : Table OriginEntry) (id : BitVec 32) : Bool :=
  origins.someSuch (fun _ e => decide (e.originId = id))

/-- The stage-2 lookup (R42): the valid entry that holds the stream key. -/
def streamLookup (streams : Table StreamEntry) (label origin : Nat) : Option (Nat × StreamEntry) :=
  streams.firstSuch (fun _ e => decide (e.label = label) && decide (e.origin = origin))

/-- A cell that no entry matches at stage 1 (R40, R41): counted, and a notice raised while the link's flag is clear. -/
def State.unknownOrigin (c : GoodCell) (s : State) : State :=
  let s := s.countLink c.link (fun k => { k with unknownOrigin := bump k.unknownOrigin })
  if (s.link c.link).unknownFlag then s
  else
    (s.setLink c.link { s.link c.link with unknownFlag := true }).raise
      (.originUnknown c.link c.originId (cellLabel c.cell) (originKnown s.origins c.originId))

/-! ## The merge (R60 to R69) -/

/-- What the merge makes of a cell: accepted, with the record it leaves, the numbers lost and, at a resynchronisation,
the highest sequence before it; or discarded. -/
inductive MergeOutcome where
  | accepted (record : MergeRecord) (lost : Nat) (jumpedFrom : Option Seq)
  | duplicate
  | stale
deriving DecidableEq, Repr

/-- A record that starts at `s`: every number up to `s` in the window counts as seen (R61, R67). -/
def MergeRecord.startAt (s : Seq) : MergeRecord := .running s (BitVec.allOnes 64)

/-- The numbers lost at an advance by `d` (R63): the unseen ones among those that leave the window, and those beyond it
that were never in it. -/
def lostAtAdvance (seen : BitVec 64) (d : Nat) : Nat :=
  ((List.range (min d 64)).filter (fun i => !seen.getLsbD (63 - i))).length + (d - 64)

/-- The window after an advance by `d` (R62): old marks move up, entering numbers are unseen, the new highest is seen. -/
def advanceWindow (seen : BitVec 64) (d : Nat) : BitVec 64 := (seen <<< d) ||| 1#64

/-- The outcome of a cell with sequence number `s` (R60). -/
def mergeCell (m : MergeRecord) (s : Seq) : MergeOutcome :=
  match m with
  | .fresh => .accepted (.startAt s) 0 none
  | .running h seen =>
    let d := (s - h).toInt
    if 4096 < d ∨ d < -4096 then .accepted (.startAt s) 0 (some h)
    else if 1 ≤ d then .accepted (.running s (advanceWindow seen d.toNat)) (lostAtAdvance seen d.toNat) none
    else if d = 0 then .duplicate
    else if -63 ≤ d then
      if seen.getLsbD (-d).toNat then .duplicate
      else .accepted (.running h (seen ||| (1#64 <<< (-d).toNat))) 0 none
    else .stale

/-- An accepted cell handed on by the class read at its lookup (R43, R44). -/
def State.handOut (h : HandedCell) (s : State) : State :=
  match h.cls with
  | .service => { s with toRelease := s.toRelease ++ [h] }
  | .shared => { s with toRelease := s.toRelease ++ [h] }
  | .cue => { s with toRelease := s.toRelease ++ [h], toCue := s.toCue ++ [h] }
  | .timing => { s with toTiming := s.toTiming ++ [h] }
  | .drop => s

/-- A cell merged against the record of the entry it matched, and counted within the event (R69). -/
def State.mergeTaken (c : GoodCell) (index origin : Nat) (e : StreamEntry) (s : State) : State :=
  match mergeCell e.merge c.seq with
  | .duplicate =>
    ({ s with streams := s.streams.put index { e with
        counts := { e.counts with duplicate := bump e.counts.duplicate } } } : State).countLink c.link
      (fun k => { k with secondArrivals := bump k.secondArrivals })
  | .stale =>
    { s with streams := s.streams.put index { e with counts := { e.counts with stale := bump e.counts.stale } } }
  | .accepted record lost jumpedFrom =>
    let s := ({ s with streams := s.streams.put index { e with
        merge := record
        counts := { e.counts with
          accepted := bump e.counts.accepted, lost := bumpBy lost e.counts.lost } } } : State).countLink c.link
      (fun k => { k with firstArrivals := bump k.firstArrivals })
    let s := match jumpedFrom with
      | some h => s.raise (.seqJump index c.link h c.seq)
      | none => s
    s.handOut { item := c, stream := index, origin := origin, cls := e.cls, service := e.service }

/-- A cell looked up and merged (R39, R40, R42). -/
def State.classify (c : GoodCell) (s : State) : State :=
  match originLookup s.origins c.originId c.link with
  | none => s.unknownOrigin c
  | some origin =>
    match streamLookup s.streams (cellLabel c.cell) origin with
    | none => s.countLink c.link (fun k => { k with streamMisses := bump k.streamMisses })
    | some (index, e) => s.mergeTaken c index origin e

/-- The cell at the head of a link's hand-on queue taken (R32, R39); an empty queue gives nothing to take. -/
def State.takeCell (l : Link) (s : State) : State :=
  match (s.link l).handOn with
  | [] => s
  | c :: rest => (s.setLink l { s.link l with handOn := rest }).classify { c with link := l }

/-! ## Origins (R48, R49) -/

/-- ORIGIN.SET at the Classifier (R48, R49). -/
def handleOriginSet (index valid : Byte) (originId : BitVec 32) (links : Byte) (s : State) : Answer :=
  let k := index.toNat
  match readRange 0 15 k, readFlag valid, readLinks links with
  | some _, some true, some permitted =>
    if s.origins.someSuch (fun j e => decide (j ≠ k) && decide (e.originId = originId)) then .refuse .duplicate
    else
      let changed := match s.origins.get k with
        | some old => decide (old.originId ≠ originId)
        | none => false
      .ok { s with
        origins := s.origins.put k { originId := originId, links := permitted }
        streams := if changed then
            s.streams.mapAll (fun e => if e.origin = k then { e with merge := .fresh } else e)
          else s.streams } []
  | some _, some false, some _ =>
    if (s.origins.get k).isSome ∧ s.streams.someSuch (fun _ e => decide (e.origin = k)) = true then .refuse .inUse
    else .ok { s with origins := s.origins.del k } []
  | _, _, _ => .refuse .range

/-! ## Streams (R50 to R52) -/

/-- A service a stream of this class names is spliced: its splice state is not NETWORK (03, section 3.5). -/
def State.spliced (s : State) (service : Option Nat) : Bool :=
  match service with
  | some k => decide (s.spliceOf k ≠ .network)
  | none => false

/-- The service a valid entry holds: for SERVICE and CUE alone. -/
def StreamEntry.held (e : StreamEntry) : Option Nat := if e.cls.needsService then e.service else none

/-- The runtime part after an accepted STREAM.SET (R51). -/
def StreamRequest.entry (r : StreamRequest) (old : Option StreamEntry) : StreamEntry :=
  match old with
  | some e =>
    if e.label = r.label ∧ e.origin = r.origin ∧ e.cls = r.cls then { e with service := r.service }
    else { label := r.label, origin := r.origin, cls := r.cls, service := r.service, merge := .fresh, counts := .zero }
  | none =>
    { label := r.label, origin := r.origin, cls := r.cls, service := r.service, merge := .fresh, counts := .zero }

/-- The service an accepted or refused STREAM.SET names is valid (R50). -/
def State.serviceValid (s : State) (service : Option Nat) : Bool :=
  match service with
  | some k => (s.services.get k).isSome
  | none => true

/-- For SERVICE: the label is one of the named service's component labels (R50). -/
def State.labelMapped (s : State) (r : StreamRequest) : Bool :=
  match r.cls, r.service with
  | .service, some k =>
    (match s.services.get k with
      | some e => decide (r.label ∈ e.labels)
      | none => false)
  | .service, none => false
  | .shared, _ => true
  | .cue, _ => true
  | .timing, _ => true
  | .drop, _ => true

/-- STREAM.SET at the Classifier (R50, R51). -/
def handleStreamSet (b : StreamSetBody) (s : State) : Answer :=
  match readStreamSet b with
  | none => .refuse .range
  | some r =>
    if (s.origins.get r.origin).isNone then .refuse .state
    else if s.streams.someSuch
        (fun j e => decide (j ≠ r.index) && decide (e.label = r.label) && decide (e.origin = r.origin)) then
      .refuse .duplicate
    else if !s.serviceValid r.service then .refuse .noService
    else if !s.labelMapped r then .refuse .notMapped
    else if s.spliced ((s.streams.get r.index).bind StreamEntry.held) || s.spliced r.service then .refuse .busy
    else .ok { s with streams := s.streams.put r.index (r.entry (s.streams.get r.index)) } []

/-- STREAM.CLEAR at the Classifier (R52). -/
def handleStreamClear (index : Nat) (s : State) : Answer :=
  if 511 < index then .refuse .range
  else if s.spliced ((s.streams.get index).bind StreamEntry.held) then .refuse .busy
  else .ok { s with streams := s.streams.del index } []

/-! ## Services (R53 to R55) -/

/-- The components after an accepted SERVICE.SET on a valid entry: an unchanged position keeps its runtime fields, a
changed one restarts (R54). -/
def mergeComponents : List Component → List Nat → List Component
  | _, [] => []
  | [], l :: ls => Component.fresh l :: mergeComponents [] ls
  | c :: cs, l :: ls => (if c.label = l then c else Component.fresh l) :: mergeComponents cs ls

/-- The entry after an accepted SERVICE.SET with valid set (R54). -/
def ServiceEntry.rewritten (old : Option ServiceEntry) (number : Nat) (labels : List Nat) : ServiceEntry :=
  match old with
  | none => .fresh number labels
  | some e =>
    { e with
      number := number
      components := mergeComponents e.components labels
      anchor := if e.clockLabel = labels.head? then e.anchor else none }

/-- A label stands twice in a list. -/
def hasRepeat : List Nat → Bool
  | [] => false
  | x :: xs => decide (x ∈ xs) || hasRepeat xs

/-- A record that is ARMED names the service (R53). -/
def State.armedNames (s : State) (k : Nat) : Bool :=
  s.insertions.someSuch (fun _ r => decide (r.state = .armed) && decide (r.service = k))

/-- SERVICE.SET with valid set at the Classifier (R53, R54). -/
def handleServiceWrite (k number : Nat) (labels : List Nat) (s : State) : Answer :=
  let old := s.services.get k
  if hasRepeat labels ||
      s.services.someSuch (fun j e => decide (j ≠ k) && labels.any (fun l => decide (l ∈ e.labels))) then
    .refuse .duplicate
  else if s.spliceOf k ≠ .network then .refuse .busy
  else if s.streams.someSuch (fun _ e =>
      decide (e.cls = .service) && decide (e.service = some k) && !decide (e.label ∈ labels)) then .refuse .notMapped
  else if (match old with
      | some e => decide (labels.length < e.components.length)
      | none => false) && s.armedNames k then .refuse .inUse
  else .ok { s with services := s.services.put k (.rewritten old number labels) } []

/-- SERVICE.SET with valid clear at the Classifier (R55); a record that is neither IDLE nor DONE holds the service. -/
def handleServiceClear (k : Nat) (s : State) : Answer :=
  if s.streams.someSuch (fun _ e => e.cls.needsService && decide (e.service = some k)) ||
      s.insertions.someSuch (fun _ r => decide (r.state ≠ .done) && decide (r.service = k)) then .refuse .inUse
  else .ok { s with services := s.services.del k } []

/-- SERVICE.SET at the Classifier (R53, R55). -/
def handleServiceSet (b : ServiceSetBody) (s : State) : Answer :=
  match readRange 0 63 b.index.toNat, readFlag b.valid with
  | some k, some true =>
    (match readLabels b.labels with
      | some labels => handleServiceWrite k b.number.toNat labels s
      | none => .refuse .range)
  | some k, some false => handleServiceClear k s
  | _, _ => .refuse .range

/-! ## Reading (R56) -/

/-- ORIGIN.READ at the Classifier. -/
def handleOriginRead (index : Nat) (s : State) : Answer :=
  if 15 < index then .refuse .range
  else
    let e := s.origins.get index
    .ok s (encFlag e.isSome ++ encOptNat 4 (e.map (·.originId.toNat)) ++ encOptNat 1 (e.map (·.links.code)))

/-- The ten counters of a stream in the order of R45. -/
def StreamCounts.fields (c : StreamCounts) : Bytes :=
  [c.accepted, c.duplicate, c.stale, c.lost, c.late, c.early, c.collision, c.misaligned, c.untimed,
    c.inconsistent].flatMap (beBytes 4)

/-- A merge record's fields (R59): the status, H, and mark k of the number H - k for k from 0 to 63. -/
def MergeRecord.fields : MergeRecord → Bytes
  | .fresh => beBytes 1 0 ++ encOptNat 4 none ++ encOptNat 64 none
  | .running h seen =>
    beBytes 1 1 ++ encOptNat 4 (some h.toNat) ++ [1] ++ (List.range 64).flatMap (fun k => encFlag (seen.getLsbD k))

/-- STREAM.READ at the Classifier; an invalid entry reads as FRESH with its counters 0. -/
def handleStreamRead (index : Nat) (s : State) : Answer :=
  if 511 < index then .refuse .range
  else
    let e := s.streams.get index
    .ok s (encFlag e.isSome ++ encOptNat 2 (e.map (·.label)) ++ encOptNat 1 (e.map (·.origin)) ++
      encOptNat 1 (e.map (·.cls.code)) ++ encOptNat 1 (e.bind StreamEntry.held) ++
      (match e with
        | some x => x.merge.fields ++ x.counts.fields
        | none => MergeRecord.fresh.fields ++ StreamCounts.zero.fields))

/-- The clock anchor in a reply: C_a and g_a, absent while the mark is clear, and the mark (R47, R167). -/
def anchorFields (a : Option Anchor) : Bytes :=
  encOptNat 5 (a.map (·.clock.toNat)) ++ encOptNat 3 (a.map (·.slot)) ++ encFlag a.isSome

/-- A service's runtime fields in the order of R47. -/
def ServiceEntry.runtimeFields (e : ServiceEntry) : Bytes :=
  encList 1 (fun c => beBytes 1 (Component.continuity c)) e.components ++
    encList 1 (fun c => encFlag (Component.emittedYet c)) e.components ++
    encList 1 (fun c => encFlag (Component.awaitDisc c)) e.components ++ anchorFields e.anchor ++
    beBytes 1 e.splice.code ++ encOptNat 1 e.active ++ beBytes 4 e.replaced ++ beBytes 4 e.localCells ++
    beBytes 4 e.nulls

/-- SERVICE.READ at the Classifier; an invalid service reads with its runtime fields at their reset values. -/
def handleServiceRead (index : Nat) (s : State) : Answer :=
  if 63 < index then .refuse .range
  else
    let e := s.services.get index
    let shown := e.getD (.fresh 0 [])
    .ok s (encFlag e.isSome ++ encOptNat 2 (e.map (·.number)) ++ encFlag e.isSome ++
      encList 1 (beBytes 2) shown.labels ++ shown.runtimeFields)

/-! ## Meanings -/

/-- CELL_TAKE (R39). -/
def execCellTake (link : Link) (s : State) : Host.Outcome State Fault Refusal := .next (s.takeCell link)

/-- ORIGIN.SET (R48). -/
def execOriginSet (tag : BitVec 16) (index valid : Byte) (originId : BitVec 32) (links : Byte) (s : State) :
    Host.Outcome State Fault Refusal :=
  .next (s.request (.originSet tag index valid originId links) 0x0201#16 tag
    (handleOriginSet index valid originId links))

/-- ORIGIN.READ (R56). -/
def execOriginRead (tag : BitVec 16) (index : Byte) (s : State) : Host.Outcome State Fault Refusal :=
  .next (s.request (.originRead tag index) 0x0202#16 tag (handleOriginRead index.toNat))

/-- STREAM.SET (R50). -/
def execStreamSet (tag : BitVec 16) (body : StreamSetBody) (s : State) : Host.Outcome State Fault Refusal :=
  .next (s.request (.streamSet tag body) 0x0203#16 tag (handleStreamSet body))

/-- STREAM.CLEAR (R52). -/
def execStreamClear (tag index : BitVec 16) (s : State) : Host.Outcome State Fault Refusal :=
  .next (s.request (.streamClear tag index) 0x0204#16 tag (handleStreamClear index.toNat))

/-- STREAM.READ (R56). -/
def execStreamRead (tag index : BitVec 16) (s : State) : Host.Outcome State Fault Refusal :=
  .next (s.request (.streamRead tag index) 0x0205#16 tag (handleStreamRead index.toNat))

/-- SERVICE.SET (R53, R55). -/
def execServiceSet (tag : BitVec 16) (body : ServiceSetBody) (s : State) : Host.Outcome State Fault Refusal :=
  .next (s.request (.serviceSet tag body) 0x0206#16 tag (handleServiceSet body))

/-- SERVICE.READ (R56). -/
def execServiceRead (tag : BitVec 16) (index : Byte) (s : State) : Host.Outcome State Fault Refusal :=
  .next (s.request (.serviceRead tag index) 0x0207#16 tag (handleServiceRead index.toNat))

end Sys2Proof.Machine
end

