-- ==== Sys2Proof/Machine/SlotPlan.lean ====
section
/-! DEFINITION. The slot plan and the site-cell carousel (06, section 6.3): PLAN.WRITE, PLAN.SWAP, PLAN.CANCEL,
PLAN.READ, SITECELL.SET, SITECELL.READ, and the swap at a second boundary. -/

namespace Sys2Proof.Machine

/-! ## Banks -/

/-- A bank: bank 1, or bank 0. -/
def Assembler.bank (a : Assembler) (one : Bool) : PlanBank := if one then a.bank1 else a.bank0

/-- A bank replaced. -/
def Assembler.setBank (a : Assembler) (one : Bool) (b : PlanBank) : Assembler :=
  if one then { a with bank1 := b } else { a with bank0 := b }

/-- The active bank (R103). -/
def Assembler.activeBank (a : Assembler) : PlanBank := a.bank a.activeOne

/-- The entry at a position; an unlisted position is NULL. -/
def PlanBank.entry (b : PlanBank) (k : Nat) : PlanEntry := (b.entries.get k).getD .null

/-- An entry written: NULL is kept by listing nothing. -/
def PlanBank.write (b : PlanBank) (k : Nat) (e : PlanEntry) : PlanBank :=
  match e with
  | .null => { b with entries := b.entries.del k }
  | .site => { b with entries := b.entries.put k .site }
  | .spare => { b with entries := b.entries.put k .spare }

/-- Entries written from a position on, in order (R106). -/
def PlanBank.writeRun (b : PlanBank) : Nat → List PlanEntry → PlanBank
  | _, [] => b
  | k, e :: es => PlanBank.writeRun (b.write k e) (k + 1) es

/-! ## The swap at a second boundary (R109, R200) -/

/-- The armed swap acted on at a second boundary, with the second number the boundary begins (R109). -/
def State.swapAtBoundary (s : State) : State :=
  match s.assembler.armedSwap with
  | none => s
  | some armed =>
    let passed := (s.time.second - armed).toInt
    if passed < 0 then s
    else
      ({ s with assembler := { s.assembler with activeOne := !s.assembler.activeOne, armedSwap := none } } : State).raise
        (.planSwap (!s.assembler.activeOne) armed s.time.second (decide (0 < passed)))

/-! ## Requests -/

/-- A bank number: 0 or 1. -/
def readBank (b : Byte) : Option Bool := readChoice false true b

/-- PLAN.WRITE's fields against the first check of R106: the bank, the entries and the new length, if one is given. -/
def readPlanWrite (b : PlanWriteBody) : Option (Bool × List PlanEntry × Option Nat) := do
  let bank ← readBank b.bank
  let entries ← readAll readPlanEntry b.entries
  let present ← readFlag b.lengthPresent
  if b.first.toNat + entries.length ≤ 1024 then
    if present then
      let length ← readRange 1 1024 b.length.toNat
      some (bank, entries, some length)
    else some (bank, entries, none)
  else none

/-- PLAN.WRITE at the Assembler (R106). -/
def handlePlanWrite (b : PlanWriteBody) (s : State) : Answer :=
  match readPlanWrite b with
  | none => .refuse .range
  | some (bank, entries, length) =>
    if bank = s.assembler.activeOne then .refuse .activeBank
    else if s.assembler.armedSwap.isSome then .refuse .pending
    else
      let old := s.assembler.bank bank
      let written := old.writeRun b.first.toNat entries
      .ok { s with assembler := s.assembler.setBank bank { written with length := length.getD old.length } } []

/-- PLAN.SWAP at the Assembler (R107). -/
def handlePlanSwap (second : Epoch) (s : State) : Answer :=
  let ahead := (second - s.time.second).toInt
  if s.assembler.armedSwap.isSome then .refuse .pending
  else if !s.time.epochKnown then .refuse .untimed
  else if ahead < 1 then .refuse .late
  else if 3600 < ahead then .refuse .range
  else .ok { s with assembler := { s.assembler with armedSwap := some second } } []

/-- PLAN.CANCEL at the Assembler (R108): the reply states whether a swap was disarmed. -/
def handlePlanCancel (s : State) : Answer :=
  .ok { s with assembler := { s.assembler with armedSwap := none } } (encFlag s.assembler.armedSwap.isSome)

/-- PLAN.READ at the Assembler (R108). An empty range (count 0), of which R108 says nothing, is accepted for a first position
up to 1,024 and refused with RANGE above (DESIGN CHOICE, log entry 36). -/
def handlePlanRead (bank : Byte) (first count : Nat) (s : State) : Answer :=
  match readBank bank with
  | none => .refuse .range
  | some one =>
    if first + count ≤ 1024 then
      let a := s.assembler
      .ok s (encFlag a.activeOne ++ beBytes 2 a.bank0.length ++ beBytes 2 a.bank1.length ++
        encOptNat 4 (a.armedSwap.map BitVec.toNat) ++
        encList 2 (fun k => beBytes 1 ((a.bank one).entry k).code) (List.range' first count))
    else .refuse .range

/-- SITECELL.SET at the Assembler (R110). -/
def handleSitecellSet (cells : List Bytes) (s : State) : Answer :=
  .ok { s with assembler := { s.assembler with carousel := cells, pointer := 0 } } []

/-- SITECELL.READ at the Assembler (R110). -/
def handleSitecellRead (s : State) : Answer :=
  .ok s (beBytes 1 s.assembler.carousel.length ++ beBytes 1 s.assembler.pointer ++ s.assembler.carousel.flatten)

/-- PLAN.WRITE (R106). -/
def execPlanWrite (tag : BitVec 16) (body : PlanWriteBody) (s : State) : Host.Outcome State Fault Refusal :=
  .next (s.request (.planWrite tag body) 0x0403#16 tag (handlePlanWrite body))

/-- PLAN.SWAP (R107). -/
def execPlanSwapRequest (tag : BitVec 16) (second : BitVec 32) (s : State) : Host.Outcome State Fault Refusal :=
  .next (s.request (.planSwapRequest tag second) 0x0404#16 tag (handlePlanSwap second))

/-- PLAN.CANCEL (R108). -/
def execPlanCancel (tag : BitVec 16) (s : State) : Host.Outcome State Fault Refusal :=
  .next (s.request (.planCancel tag) 0x0405#16 tag handlePlanCancel)

/-- PLAN.READ (R108). -/
def execPlanRead (tag : BitVec 16) (bank : Byte) (first count : BitVec 16) (s : State) :
    Host.Outcome State Fault Refusal :=
  .next (s.request (.planRead tag bank first count) 0x0406#16 tag (handlePlanRead bank first.toNat count.toNat))

/-- SITECELL.SET (R110). -/
def execSitecellSet (tag : BitVec 16) (cells : List Bytes) (s : State) : Host.Outcome State Fault Refusal :=
  .next (s.request (.sitecellSet tag cells) 0x0407#16 tag (handleSitecellSet cells))

/-- SITECELL.READ (R110). -/
def execSitecellRead (tag : BitVec 16) (s : State) : Host.Outcome State Fault Refusal :=
  .next (s.request (.sitecellRead tag) 0x0408#16 tag handleSitecellRead)

end Sys2Proof.Machine
end

