-- ==== Sys2Proof/Machine/TimeUnit.lean ====
section
/-! DEFINITION. The Time Unit (01): second boundaries, the epoch, PPS edges, the discipline loop, phase steps, step
states, reference loss and holdover; the slots a forward step skips (R88); TIME.CONFIG, TIME.SET, TIME.READ,
TIME.CLEAR. -/

namespace Sys2Proof.Machine

/-! ## Epoch moves and second boundaries -/

/-- An epoch move (R5): INSTEP becomes ACQUIRE, HOLDOVER becomes FREE, and every anchor is invalidated. The second
number has its new value already. -/
def State.epochMove (s : State) : State :=
  let s := match s.time.stepState with
    | .instep =>
      ({ s with time := { s.time with qualifyCount := 0 } } : State).enterStep .acquire .epochMoved
    | .holdover =>
      ({ s with time := { s.time with qualifyCount := 0, holdover := none } } : State).enterStep .free .epochMoved
    | .free => s
    | .acquire => s
  s.invalidateAnchors

/-- The second number of the second that begins at a boundary (R1, R4): a pending TIME.SET takes the place of the
advanced value, sets epoch known, and is an epoch move when it changes a known epoch. Where the epoch was unknown site time
is continuous: the current slot stays in the second before the one that begins (R139; log entry 27). -/
def State.beginSecond (s : State) : State :=
  let advanced := s.time.second + 1
  match s.time.pendingSet with
  | none => { s with time := { s.time with second := advanced } }
  | some set =>
    let known := s.time.epochKnown
    let s := ({ s with
                  time := { s.time with
                    second := set, epochKnown := true, mismatchCount := 0, pendingSet := none }
                  assembler := if known then s.assembler else s.assembler.learnEpoch advanced set } : State).raise
      (.epoch .set (if known then some advanced else none) set)
    if known && decide (set ≠ advanced) then s.epochMove else s

/-- The end of the holdover countdown (R17). -/
def State.expireHoldover (s : State) : State :=
  ({ s with time := { s.time with qualifyCount := 0, holdover := none } } : State).enterStep .free .holdoverExpired

/-- The holdover countdown at a second boundary, only if the step state is still HOLDOVER (R2, R17). -/
def State.countHoldover (s : State) : State :=
  match s.time.stepState, s.time.holdover with
  | .holdover, some left =>
    if left ≤ 1 then s.expireHoldover else { s with time := { s.time with holdover := some (left - 1) } }
  | .holdover, none => s
  | .free, _ => s
  | .acquire, _ => s
  | .instep, _ => s

/-- A second boundary (R1, R2): the tick count returns to 0 with a change of second number, and the boundary is handed
to the pending TIME.SET, the holdover countdown and the armed plan swap, in this order. The slot that begins at tick 0
is due. -/
def State.takeSecondBoundary (s : State) : State :=
  let s := { s with
    time := { s.time with tick := 0, boundaries := s.time.boundaries + 1 }
    secondDue := false, slotDue := true, heldNotices := none }
  s.beginSecond.countHoldover.swapAtBoundary

/-- The second boundary that is due is taken (R2); where slot 0 has been taken before it, what is left is that its notices
join the queue (R198; log entry 32). -/
def State.takeDueSecond (s : State) : State :=
  if s.heldNotices.isSome then { s.joinHeld with secondDue := false, heldNotices := none } else s.takeSecondBoundary

/-- The second boundary that is due will end the holdover (R17): the countdown stands at its last second and no pending
TIME.SET moves the epoch first. -/
def State.holdoverEnding (s : State) : Bool :=
  s.secondDue && s.heldNotices.isNone && decide (s.time.stepState = .holdover) && decide (s.time.holdover = some 1) &&
    (match s.time.pendingSet with
      | none => true
      | some set => !s.time.epochKnown || decide (set = s.time.second + 1))

/-! ## The discipline loop (R9, R10) -/

/-- Division by 256 rounded to the nearest whole number, halves to even (R9, step 3). -/
def divRound256 (n : Int) : Int :=
  let q := n / 256
  let r := n % 256
  if r < 128 then q else if 128 < r then q + 1 else if q % 2 = 0 then q else q + 1

/-- The integrator's step of a loop update (R9 step 1, R10). -/
def State.updateIntegrator (e : Int) (s : State) : State :=
  let raw := s.time.integrator + s.time.config.ki * e
  let new := clamp (-134217727) 134217727 raw
  let limited : State := { s with time := { s.time with
    integrator := new, intLimit := s.time.intLimit || decide (new ≠ raw) } }
  if new ≠ raw ∧ s.time.intLimit = false then limited.raiseTime (.intLimit e raw new) else limited

/-- The steering word's steps of a loop update (R9 steps 2 to 4, R10); the word is sent at once. -/
def State.updateSteering (e : Int) (s : State) : State :=
  let raw := divRound256 (s.time.config.kp * e + s.time.integrator)
  let new := clamp (-524288) 524287 raw
  let limited : State := { s with time := { s.time with
    steering := new, steerLimit := s.time.steerLimit || decide (new ≠ raw), sentWord := new
    sentCount := s.time.sentCount + 1 } }
  if new ≠ raw ∧ s.time.steerLimit = false then limited.raiseTime (.steerLimit e raw new) else limited

/-- A loop update (R9). -/
def State.loopUpdate (e : Int) (s : State) : State := (s.updateIntegrator e).updateSteering e

/-! ## Skipped slots and phase steps (R12, R88) -/

/-- Entry `i` of the ring belongs to one of the `count` slots from slot number `first` on (R88). -/
def slotSkipped (first count i : Nat) : Bool :=
  decide ((i + Config.ringSize - first % Config.ringSize) % Config.ringSize < count)

/-- One late cell counted on the stream of each entry (R87, R88). -/
def countLateEntries (entries : Table RingEntry) (streams : Table StreamEntry) : Table StreamEntry :=
  entries.foldl
    (fun st p => countStream st p.2.stream p.2.origin (cellLabel p.2.cell) p.2.cls StreamCounts.bumpLate) streams

/-- The slots of the ending second from tick count `c` on are skipped (R88): their ring entries are cleared and each cell
found is counted late. Without an epoch the ring holds nothing (R85). -/
def State.skipSlots (c : Nat) (s : State) : State :=
  if s.time.epochKnown then
    let from0 := (c + s.site.period - 1) / s.site.period
    let first := s.time.second.toNat % 64 * s.n + from0
    let count := s.n - from0
    { s with
      streams := countLateEntries (s.ring.keep (fun i _ => slotSkipped first count i)) s.streams
      ring := s.ring.keep (fun i _ => !slotSkipped first count i) }
  else s

/-- A phase step at a qualified edge with |e| above the threshold (R12), from the step state `old`. The STEP notice bears
the stamp at which the edge was taken and precedes the notices of the boundary it makes (log entry 11). -/
def State.phaseStep (old : StepState) (c : Nat) (e : Int) (s : State) : State :=
  let s := s.raiseTime (.step old .acquire .phaseStep e)
  let s : State := { s with time := { s.time with
    stepState := .acquire, holdover := none, qualifyCount := 0, phaseCount := bump s.time.phaseCount } }
  let s := if e < 0 then (s.skipSlots c).takeSecondBoundary
    else { s with time := { s.time with tick := 0 }, secondDue := false, slotDue := true, heldNotices := none }
  s.invalidateAnchors.dropPermit

/-! ## Qualified edges by step state (R13 to R15) -/

/-- The error is within the step threshold Ts (R12). -/
def withinThreshold (e : Int) : Bool := decide (e.natAbs ≤ Config.stepThreshold)

/-- The qualify count incremented, holding at 255 (R13). -/
def qualifyUp (n : Nat) : Nat := min (n + 1) 255

/-- A qualified edge in ACQUIRE (R13). -/
def State.edgeInAcquire (c : Nat) (e : Int) (s : State) : State :=
  if withinThreshold e then
    let s := s.loopUpdate e
    let count := if e.natAbs ≤ s.time.config.window then qualifyUp s.time.qualifyCount else 0
    let s : State := { s with time := { s.time with qualifyCount := count } }
    if s.time.config.qualify ≤ count ∧ s.time.epochKnown = true then s.enterStep .instep .qualified else s
  else s.phaseStep .acquire c e

/-- The window test of a qualified edge in INSTEP after its loop update (R14). -/
def State.wander (e : Int) (s : State) : State :=
  if e.natAbs ≤ s.time.config.window then
    { s with time := { s.time with qualifyCount := qualifyUp s.time.qualifyCount } }
  else
    let s := s.raiseTime (.wander e)
    { s with time := { s.time with qualifyCount := 0 } }

/-- A qualified edge in INSTEP (R14). -/
def State.edgeInStep (c : Nat) (e : Int) (s : State) : State :=
  if withinThreshold e then (s.loopUpdate e).wander e else s.phaseStep .instep c e

/-- A qualified edge in HOLDOVER (R15). -/
def State.edgeInHoldover (c : Nat) (e : Int) (s : State) : State :=
  if withinThreshold e then
    let s := ({ s with time := { s.time with holdover := none } } : State).enterStep .instep .resumed
    s.edgeInStep c e
  else s.phaseStep .holdover c e

/-- A qualified edge in FREE (R13). -/
def State.edgeInFree (c : Nat) (e : Int) (s : State) : State :=
  let s := ({ s with time := { s.time with qualifyCount := 0 } } : State).enterStep .acquire .qualified
  s.edgeInAcquire c e

/-- A qualified edge handled by the step state (01, section 1.6). -/
def State.qualifiedEdge (c : Nat) (e : Int) (s : State) : State :=
  match s.time.stepState with
  | .free => s.edgeInFree c e
  | .acquire => s.edgeInAcquire c e
  | .instep => s.edgeInStep c e
  | .holdover => s.edgeInHoldover c e

/-! ## PPS edges (R6, R7) -/

/-- The phase error of an edge captured at tick count `c` (R6). -/
def phaseError (c : Nat) : Int := if c < 5000000 then c else (c : Int) - Config.ticksPerSecond

/-- An edge becomes the reference edge: the captures are recorded, the interval counter restarts and the reference timer
is armed (R7, R8). -/
def State.newReference (c : Nat) (e : Int) (interval : Option Nat) (s : State) : State :=
  { s with time := { s.time with
    refEdge := true, interval := 0, refTimer := some Config.referenceTicks, refExpired := false
    lastC := some c, lastE := some e, lastInterval := interval } }

/-- A long edge (R7). -/
def State.longEdge (s : State) : State :=
  { s with time := { s.time with
    longCount := bump s.time.longCount
    qualifyCount := if s.time.stepState = .acquire then 0 else s.time.qualifyCount } }

/-- A captured edge classified by its interval (R7). -/
def State.captureEdge (s : State) : State :=
  let c := s.time.tick
  let e := phaseError c
  let interval := s.time.interval
  if s.time.refEdge = false then s.newReference c e none
  else if interval < 9999000 then { s with time := { s.time with glitchCount := bump s.time.glitchCount } }
  else if interval ≤ 10001000 then (s.newReference c e (some interval)).qualifiedEdge c e
  else (s.newReference c e (some interval)).longEdge

/-- Reference lost (R16). -/
def State.loseReference (s : State) : State :=
  match s.time.stepState with
  | .free => s
  | .holdover => s
  | .acquire => ({ s with time := { s.time with qualifyCount := 0 } } : State).enterStep .free .referenceLost
  | .instep =>
    if 0 < s.time.config.holdoverLimit then
      ({ s with time := { s.time with holdover := some s.time.config.holdoverLimit } } : State).enterStep
        .holdover .referenceLost
    else ({ s with time := { s.time with qualifyCount := 0 } } : State).enterStep .free .referenceLost

/-! ## Timing cells at the Time Unit (R18, R19) -/

/-- The derived second Y of a consistent timing cell: X, or X + 1 when the cell was stamped in one second and arrived in
the next, advanced by the boundaries taken since its arrival (R18). -/
def derivedSecond (x : Epoch) (headStamp arrivalTick since : Nat) : Epoch :=
  let y := if headStamp % Config.ticksPerSecond ≤ arrivalTick then x else x + 1
  y + BitVec.ofNat 32 since

/-- A consistent timing cell used by the Time Unit (R19). -/
def State.adoptEpoch (y : Epoch) (s : State) : State :=
  if s.time.epochKnown then
    if y = s.time.second then { s with time := { s.time with mismatchCount := 0 } }
    else if s.time.mismatchCount + 1 < 3 then
      { s with time := { s.time with mismatchCount := s.time.mismatchCount + 1 } }
    else
      (({ s with time := { s.time with second := y, mismatchCount := 0 } } : State).raiseTime
        (.epoch .readopted (some s.time.second) y)).epochMove
  else
    ({ s with
        time := { s.time with second := y, epochKnown := true, mismatchCount := 0 }
        assembler := s.assembler.learnEpoch s.time.second y } : State).raiseTime (.epoch .adopted none y)

/-! ## Requests -/

/-- Disabling the reference source (R21). -/
def State.disableSource (s : State) : State :=
  let s : State := { s with time := { s.time with
    refEdge := false, interval := 0, refTimer := none, refExpired := false, holdover := none, qualifyCount := 0 } }
  if s.time.stepState = .free then s else s.enterStep .free .sourceDisabled

/-- TIME.CONFIG at the Time Unit (R21). -/
def handleTimeConfig (b : TimeConfigBody) (s : State) : Answer :=
  match readTimeConfig b with
  | none => .refuse .range
  | some new =>
    let old := s.time.config
    if new.polarity ≠ old.polarity ∧ old.sourceEnabled = true ∧ new.sourceEnabled = true then .refuse .busy
    else
      let s : State := { s with time := { s.time with config := new } }
      let s := if old.sourceEnabled && !new.sourceEnabled then s.disableSource else s
      .ok s.dropPermit []

/-- TIME.SET at the Time Unit (R3). -/
def handleTimeSet (second : Epoch) (s : State) : Answer :=
  if s.time.pendingSet.isSome then .refuse .pending
  else .ok { s with time := { s.time with pendingSet := some second } } []

/-- TIME.CLEAR at the Time Unit (R11): FLAGS, or FLAGS AND COUNTS. -/
def handleTimeClear (choice : Byte) (s : State) : Answer :=
  match readChoice false true choice with
  | none => .refuse .range
  | some counts =>
    let t := { s.time with steerLimit := false, intLimit := false }
    .ok { s with time :=
      if counts then { t with glitchCount := 0, longCount := 0, lostCount := 0, phaseCount := 0 } else t } []

/-- TIME.CONFIG's fields in a reply, in the order and at the widths of the request (R21, R201). -/
def TimeConfig.fields (c : TimeConfig) : Bytes :=
  encFirst c.sourceEnabled ++ beBytes 1 (Edge.code c.polarity) ++ beBytes 1 c.kp ++ beBytes 1 c.ki ++
    beBytes 2 c.window ++ beBytes 1 c.qualify ++ beBytes 3 c.holdoverLimit ++ beBytes 1 c.policy.code

/-- The second number while the epoch is known (R22). -/
def TimeUnit.knownSecond (t : TimeUnit) : Option Nat := if t.epochKnown then some t.second.toNat else none

/-- TIME.READ's fields (R22). -/
def TimeUnit.fields (t : TimeUnit) : Bytes :=
  beBytes 1 t.stepState.code ++ encFlag t.epochKnown ++ encOptNat 4 t.knownSecond ++ beBytes 4 t.tick ++
    encOptNat 4 (t.pendingSet.map BitVec.toNat) ++ encOptNat 4 t.lastC ++ encOpt 4 (beInt 4) t.lastE ++
    encOptNat 4 t.lastInterval ++ encFlag t.refEdge ++ encFlag t.refExpired ++ beBytes 1 t.qualifyCount ++
    beBytes 1 t.mismatchCount ++ encOptNat 3 t.holdover ++ beInt 4 t.integrator ++ beInt 4 t.steering ++
    encFlag t.steerLimit ++ encFlag t.intLimit ++ beBytes 4 t.glitchCount ++ beBytes 4 t.longCount ++
    beBytes 4 t.lostCount ++ beBytes 4 t.phaseCount ++ t.config.fields

/-- TIME.READ at the Time Unit (R22). The tick count is the one at the handling, as every value of a read (R188; DESIGN
CHOICE, log entry 33). -/
def handleTimeRead (s : State) : Answer := .ok s s.time.fields

/-! ## Meanings -/

/-- SECOND_BOUNDARY (R2): taken when it has come. -/
def execSecondBoundary (s : State) : Host.Outcome State Fault Refusal :=
  .next (if s.secondDue then s.takeDueSecond else s)

/-- HOLDOVER_EXPIRED (R17): the second boundary whose countdown ends the holdover, taken when it has come (R2; log
entry 5). -/
def execHoldoverExpired (s : State) : Host.Outcome State Fault Refusal :=
  .next (if s.holdoverEnding then s.takeSecondBoundary else s)

/-- PPS_EDGE (R6, R7): captured while the source is enabled, if it is of the configured polarity. -/
def execPpsEdge (edge : Edge) (s : State) : Host.Outcome State Fault Refusal :=
  .next (if s.time.config.sourceEnabled ∧ edge = s.time.config.polarity then s.captureEdge else s)

/-- REFERENCE_LOST (R8): the reference timer has run out. -/
def execReferenceLost (s : State) : Host.Outcome State Fault Refusal :=
  .next (if s.time.refTimer = some 0 then
    ({ s with time := { s.time with
      refTimer := none, refExpired := true, lostCount := bump s.time.lostCount } } : State).loseReference
  else s)

/-- TIME.CONFIG (R21). -/
def execTimeConfig (tag : BitVec 16) (body : TimeConfigBody) (s : State) : Host.Outcome State Fault Refusal :=
  .next (s.request (.timeConfig tag body) 0x0101#16 tag (handleTimeConfig body))

/-- TIME.SET (R3). -/
def execTimeSet (tag : BitVec 16) (second : BitVec 32) (s : State) : Host.Outcome State Fault Refusal :=
  .next (s.request (.timeSet tag second) 0x0102#16 tag (handleTimeSet second))

/-- TIME.READ (R22). -/
def execTimeRead (tag : BitVec 16) (s : State) : Host.Outcome State Fault Refusal :=
  .next (s.request (.timeRead tag) 0x0103#16 tag handleTimeRead)

/-- TIME.CLEAR (R11). -/
def execTimeClear (tag : BitVec 16) (choice : Byte) (s : State) : Host.Outcome State Fault Refusal :=
  .next (s.request (.timeClear tag choice) 0x0104#16 tag (handleTimeClear choice))

end Sys2Proof.Machine
end

