-- ==== Sys2Proof/Machine/Release.lean ====
section
/-! DEFINITION. The Release Unit (05): the parameters in force, timing cells, the release computation and its write into
the Release Ring, RELEASE.READ. -/

namespace Sys2Proof.Machine

/-! ## The release computation (R79 to R84) -/

/-- The release instant (R81): E + Dn + Δ - Lx, formed in full and reduced into the stamp cycle. -/
def State.releaseInstant (stamp : Nat) (s : State) : Nat :=
  (((stamp : Int) + s.release.dn + s.release.offset - s.site.latency) % (Config.stampCycle : Int)).toNat

/-- The release slot (R81): the release instant divided by P, rounded down. -/
def State.releaseSlot (stamp : Nat) (s : State) : Nat := s.releaseInstant stamp / s.site.period

/-- The hold time of a slot for a cell that arrived at stamp `a` (R82). -/
def State.holdTime (g a : Nat) (s : State) : Int := stampDiff (g * s.site.period) a

/-- The release instant is not a whole multiple of P (R81). -/
def State.misaligned (stamp : Nat) (s : State) : Bool := decide (s.releaseInstant stamp % s.site.period ≠ 0)

/-- What a timed cell comes to (R82 to R84): late, early, a collision, or a write of its ring entry. -/
inductive ReleaseOutcome where
  | late
  | early
  | collision
  | written (entry : Nat)
deriving DecidableEq, Repr

/-- The outcome of a cell for slot `g` that arrived at stamp `a`, with site stamp `w` at the write (R82 to R84). -/
def State.releaseOutcome (g a w : Nat) (s : State) : ReleaseOutcome :=
  if s.holdTime g a < 2 * s.site.period then .late
  else if (s.site.holdLimit : Int) < s.holdTime g a then .early
  else if stampDiff (g * s.site.period) w ≤ 0 then .late
  else if (s.ring.get (g % Config.ringSize)).isSome then .collision
  else .written (g % Config.ringSize)

/-- The ring entry of a cell released to slot `g` (R84, R86). -/
def HandedCell.ringEntry (h : HandedCell) (g : Nat) : RingEntry :=
  { tag := g, stream := h.stream, origin := h.origin, cls := h.cls, service := h.service, cell := h.item.cell }

/-- A timed cell placed, or counted and discarded (R82 to R84). -/
def State.place (h : HandedCell) (g a w : Nat) (s : State) : State :=
  match s.releaseOutcome g a w with
  | .late => s.countHanded h StreamCounts.bumpLate
  | .early => s.countHanded h (fun c => { c with early := bump c.early })
  | .collision => s.countHanded h (fun c => { c with collision := bump c.collision })
  | .written i => { s with ring := s.ring.put i (h.ringEntry g) }

/-- The release computation of one cell (R80 to R84). A cell that meets the write with the epoch unknown is untimed (R1;
log entry 23). -/
def State.releaseCell (h : HandedCell) (s : State) : State :=
  match h.item.arrivalStamp, s.time.siteStamp with
  | some a, some w =>
    let s := if s.misaligned h.item.headStamp then
        s.countHanded h (fun c => { c with misaligned := bump c.misaligned })
      else s
    s.place h (s.releaseSlot h.item.headStamp) a w
  | _, _ => s.countHanded h (fun c => { c with untimed := bump c.untimed })

/-- The first programme cell that waits, taken (R79). -/
def State.takeRelease (s : State) : State :=
  match s.toRelease with
  | [] => s
  | h :: rest => ({ s with toRelease := rest } : State).releaseCell h

/-! ## Timing cells (R75, R76, R18, R19) -/

/-- A TIMING payload as it is read (R203). -/
structure TimingPayload where
  epoch : Epoch
  dn : Nat
  count : Nat
  overrides : List (Nat × Int)
deriving DecidableEq, Repr

/-- The override records of a TIMING payload from record `k` on (R203). -/
def readOverrides (payload : Bytes) (n : Nat) : List (Nat × Int) :=
  (List.range n).map (fun k => (fieldNat payload (9 + 6 * k) 2, fieldInt32 payload (11 + 6 * k)))

/-- A TIMING payload read; a malformed one has no override read (R75, R203). -/
def readTiming (payload : Bytes) : Option TimingPayload :=
  let dn := fieldNat payload 4 4
  let n := (byteAt payload 8).toNat
  if 8 < n ∨ 9999999 < dn then none
  else some { epoch := BitVec.ofNat 32 (fieldNat payload 0 4), dn := dn, count := n
              overrides := readOverrides payload n }

/-- The cell is consistent (R18): X modulo 64 is the second field of its head stamp. -/
def timingConsistent (x : Epoch) (headStamp : Nat) : Bool :=
  decide (x.toNat % 64 = headStamp / Config.ticksPerSecond)

/-- The offset of the first override record for a site (R76). -/
def findOverride (site : Nat) (overrides : List (Nat × Int)) : Option Int :=
  (overrides.find? (fun r => decide (r.1 = site))).map Prod.snd

/-- The site offset a consistent timing cell sets (R76). -/
def State.setOffset (stream : Nat) (found : Option Int) (s : State) : State :=
  match found with
  | none => { s with release := { s.release with offset := s.site.offset, offsetSource := .configured } }
  | some received =>
    let used := clamp (-5000000) 5000000 received
    let s : State := { s with release := { s.release with offset := used, offsetSource := .feed } }
    if used = received then s else s.raise (.offsetClamp stream s.site.siteId received used)

/-- The parameters set by a consistent timing cell (R76). -/
def State.takeParameters (stream : Nat) (p : TimingPayload) (s : State) : State :=
  let found := findOverride s.site.siteId p.overrides
  let record : TimingRecord :=
    { stream := stream, epoch := p.epoch, dn := p.dn, overrides := p.count, found := found.isSome
      clamped := match found with
        | some received => decide (clamp (-5000000) 5000000 received ≠ received)
        | none => false
      taken := s.time.siteStamp }
  ({ s with release := { s.release with dn := p.dn, dnSource := .feed, lastTiming := some record } } : State).setOffset
    stream found

/-- A timing cell taken (R75): malformed or inconsistent, counted and discarded; else its parameters are taken, and the
Time Unit uses it (R18, R19). -/
def State.timingCell (h : HandedCell) (s : State) : State :=
  let inconsistent := s.countHanded h (fun c => { c with inconsistent := bump c.inconsistent })
  match readTiming (cellPayload h.item.cell) with
  | none => inconsistent
  | some p =>
    if timingConsistent p.epoch h.item.headStamp then
      (s.takeParameters h.stream p).adoptEpoch
        (derivedSecond p.epoch h.item.headStamp h.item.arrivalTick (s.time.boundaries - h.item.arrivalBoundaries))
    else inconsistent

/-- The first timing cell that waits, taken (R75). -/
def State.takeTiming (s : State) : State :=
  match s.toTiming with
  | [] => s
  | h :: rest => ({ s with toTiming := rest } : State).timingCell h

/-! ## Reading (R92) -/

/-- The last timing record's fields in a reply (R76, R92). -/
def TimingRecord.fields (r : TimingRecord) : Bytes :=
  beBytes 2 r.stream ++ beBytes 4 r.epoch.toNat ++ beBytes 4 r.dn ++ beBytes 1 r.overrides ++ encFlag r.found ++
    encFlag r.clamped ++ encOptNat 4 r.taken

/-- RELEASE.READ at the Release Unit (R92). -/
def handleReleaseRead (s : State) : Answer :=
  .ok s (beBytes 4 s.release.dn ++ beBytes 1 s.release.dnSource.code ++ beInt 4 s.release.offset ++
    beBytes 1 s.release.offsetSource.code ++ beBytes 4 s.site.latency ++ beBytes 4 s.site.holdMax ++
    beBytes 4 s.site.period ++ beBytes 4 s.site.wrapSpan ++ beBytes 4 s.site.holdLimit ++ beBytes 3 s.ring.length ++
    encOpt 18 TimingRecord.fields s.release.lastTiming)

/-! ## Meanings -/

/-- RELEASE_COMPUTATION (R79): of the first programme cell that waits. -/
def execReleaseComputation (s : State) : Host.Outcome State Fault Refusal := .next s.takeRelease

/-- TIMING_CELL (R75): of the first timing cell that waits. -/
def execTimingCell (s : State) : Host.Outcome State Fault Refusal := .next s.takeTiming

/-- RELEASE.READ (R92). -/
def execReleaseRead (tag : BitVec 16) (s : State) : Host.Outcome State Fault Refusal :=
  .next (s.request (.releaseRead tag) 0x0301#16 tag handleReleaseRead)

end Sys2Proof.Machine
end

