-- ==== Sys2Proof/Machine/Insertion.lean ====
section
/-! DEFINITION. The Insertion Engine (08) and the Stamp Rebaser (09): insertion records and what they hold, cues, play
channels, splice start, the walk of a reel, pacing and the rewriting of local cells, break and return, and the requests
INSERT.*. -/

namespace Sys2Proof.Machine

/-! ## Records, services and channels (R138 to R140, R151) -/

/-- A record holds its service: PRIMED, LOCAL or RETURNING (R140). -/
def Insertion.holds (r : Insertion) : Bool :=
  decide (r.state = .primed) || decide (r.state = .onLocal) || decide (r.state = .returning)

/-- A record replaced. -/
def State.putRecord (k : Nat) (r : Insertion) (s : State) : State := { s with insertions := s.insertions.put k r }

/-- A service's splice state and active insertion set (R140). -/
def State.setSplice (service : Nat) (splice : SpliceState) (active : Option Nat) (s : State) : State :=
  s.updateService service (fun e => { e with splice := splice, active := active })

/-- Every component of a service awaits DISC (R160, R161). -/
def State.awaitDisc (service : Nat) (s : State) : State :=
  s.updateService service (fun e => { e with components := e.components.map (fun c => { c with awaitDisc := true }) })

/-- The record that holds a service, if one does (R140). -/
def State.holder (service : Nat) (s : State) : Option (Nat × Insertion) :=
  s.insertions.firstSuch (fun _ r => r.holds && decide (r.service = service))

/-- The lowest-numbered free play channel (R151). -/
def State.freeChannel (s : State) : Option Nat := (List.range 8).find? (fun c => (s.channels.get c).isNone)

/-- A channel freed (R151). -/
def State.releaseChannel (c : Option Nat) (s : State) : State :=
  { s with channels := match c with
      | some c => s.channels.del c
      | none => s.channels }

/-- An INSERT notice of a change from `old` to the state of `r` (R164). -/
def State.insertNotice (k : Nat) (old : RecordState) (r : Insertion) (cause : InsertCause) (s : State) : State :=
  s.raise (.insert k r.service old r.state cause r.matched s.currentNumber)

/-- A record as it stands once DONE (R138, R143, R160, R161). -/
def Insertion.ended (r : Insertion) (result : Result) (at_ : Option Pos) : Insertion :=
  { r with state := .done, result := some result, endSlot := at_, channel := none, timer := none }

/-- An active record enters DONE (R133, R140, R151): its channel is freed, its service is in NETWORK unless the record was
ARMED, and its reel and clips are released. -/
def State.enterDone (k : Nat) (r : Insertion) (result : Result) (s : State) : State :=
  let s := if r.holds then (s.releaseChannel r.channel).setSplice r.service .network none else s
  (s.changeHolds r.reel (fun n => n - 1)).putRecord k (r.ended result s.currentPos)

/-- An active record enters DONE with its INSERT notice (R164). -/
def State.finish (k : Nat) (r : Insertion) (result : Result) (s : State) : State :=
  (s.enterDone k r result).insertNotice k r.state (r.ended result s.currentPos) (.result result)

/-- A return ends or is forced (R160, R161): the record is DONE and every component awaits DISC. -/
def State.endReturn (k : Nat) (r : Insertion) (result : Result) (s : State) : State :=
  (s.awaitDisc r.service).finish k r result

/-! ## Break and exit (R158, R159) -/

/-- The playback of a channel, once its record is spliced (R151). -/
def State.playOf (c : Option Nat) (s : State) : Option Playback :=
  match c with
  | some c => (s.channels.get c).bind Channel.play
  | none => none

/-- A channel's playback replaced. -/
def State.setPlay (c : Option Nat) (p : Playback) (s : State) : State :=
  { s with channels := match c with
      | some c => s.channels.update c (fun x => { x with play := some p })
      | none => s.channels }

/-- The clip play in progress with its directory entry (R135). -/
def State.clipInPlay (p : Playback) (s : State) : Option (Nat × ClipEntry) :=
  match p.clip with
  | none => none
  | some c => (s.clips.get c).map (fun e => (c, e))

/-- The clean exit is at its end (R159): no play is in progress, the last cell has been given, or the next cell is a
START cell. -/
def State.exitComplete (p : Playback) (s : State) : Bool :=
  match s.clipInPlay p with
  | none => true
  | some (_, e) => decide (e.written ≤ p.nextCell) || (s.clipRecord (e.base + p.nextCell)).start

/-- A LOCAL record whose break has been taken becomes RETURNING (R159). -/
def State.toReturning (k : Nat) (r : Insertion) (p : Playback) (cause : BreakCause) (s : State) : State :=
  let new := { r with state := .returning }
  (((s.setPlay r.channel { p with exitPending := false, clip := none }).setSplice r.service .returning (some k)).putRecord
    k new).insertNotice k r.state new (.brk cause)

/-- The exit of a record whose break has been taken (R159): RETURNING at once, or a clean exit that is pending. -/
def State.exitLocal (k : Nat) (r : Insertion) (p : Playback) (cause : BreakCause) (s : State) : State :=
  if s.exitComplete p then s.toReturning k r p cause
  else (s.setPlay r.channel { p with exitPending := true }).putRecord k r

/-- The break of a LOCAL record taken, once (R158): the loop stack is emptied, the return-limit timer started, and the
exit begins. -/
def State.takeBreak (k : Nat) (cause : BreakCause) (result : Result) (s : State) : State :=
  match s.insertions.get k with
  | none => s
  | some r =>
    match decide (r.state = .onLocal) && r.brk.isNone, s.playOf r.channel with
    | true, some p =>
      s.exitLocal k { r with brk := some (cause, result), timer := some r.returnLimit } { p with stack := [] } cause
    | true, none => s
    | false, _ => s

/-! ## Walking the reel (R153, R154) -/

/-- Where a walk stops (R153). -/
inductive WalkStop where
  | play (clip : Nat)
  | hold
  | atEnd
deriving DecidableEq, Repr

/-- A walk from a step until a PLAY, a HOLD or END (R153). The first number bounds the steps passed (log entry 29). -/
def walk (steps : List ReelStep) : Nat → Nat → List LoopFrame → Nat × List LoopFrame × WalkStop
  | 0, cursor, stack => (cursor, stack, .hold)
  | bound + 1, cursor, stack =>
    match steps[cursor]? with
    | none => (cursor, stack, .atEnd)
    | some (.play clip) => (cursor, stack, .play clip)
    | some .hold => (cursor, stack, .hold)
    | some (.loop n) =>
      walk steps bound (cursor + 1)
        ({ bodyStart := cursor + 1, remaining := if n = 0 then none else some n } :: stack)
    | some .next =>
      match stack with
      | [] => walk steps bound (cursor + 1) []
      | frame :: outer =>
        match frame.remaining with
        | none => walk steps bound frame.bodyStart (frame :: outer)
        | some left =>
          if 1 < left then walk steps bound frame.bodyStart ({ frame with remaining := some (left - 1) } :: outer)
          else walk steps bound (cursor + 1) outer

/-- Steps a walk passes at most: a reel has 24, and a walk turns back at most once (log entry 29). -/
def walkBound : Nat := 64

/-- A programme-clock value moved by a count of slots (R168, R170, R175). -/
def State.clockAfter (v : Clock) (slots : Int) (s : State) : Clock := v + BitVec.ofInt 40 (slots * s.site.period)

/-- A clip play starts at position `gC` (R154, R170, R171, R174). -/
def State.startClip (clip : Nat) (gC : Pos) (p : Playback) (s : State) : Playback :=
  let clock := match p.clipStart with
    | some old => s.clockAfter p.clock (Pos.diff s.n gC old)
    | none => p.clock
  let base := match s.clips.get clip with
    | some e => e.clock
    | none => 0
  { p with
    clip := some clip, nextCell := 0, clipStart := some gC, clipEnd := none, clock := clock
    offset := some (clock - base), lagNoticed := false, started := [] }

/-- A LOCAL record's channel walks from a step (R153): a clip play starts, the channel stands, or under REEL the break is
taken. -/
def State.walkFrom (k step : Nat) (gC : Pos) (s : State) : State :=
  match s.insertions.get k with
  | none => s
  | some r =>
    match s.playOf r.channel with
    | none => s
    | some p =>
      let (cursor, stack, stop) := walk (s.reelSteps r.reel) walkBound step p.stack
      let p := { p with cursor := cursor, stack := stack }
      match stop with
      | .play clip => s.setPlay r.channel (s.startClip clip gC p)
      | .hold =>
        if r.endRule = .reel then (s.setPlay r.channel p).takeBreak k .endRule .complete else s.setPlay r.channel p
      | .atEnd =>
        if r.endRule = .reel then (s.setPlay r.channel p).takeBreak k .endRule .complete else s.setPlay r.channel p

/-! ## Splice start (R152, R168, R169) -/

/-- The signed slot difference of two slot numbers within the stamp cycle (R167, R168). -/
def State.slotDiff (g h : Nat) (s : State) : Int := wrapSigned s.site.slotCycle ((g : Int) - h)

/-- A service's anchor is usable at the current slot: valid, and of age at most 20,000,000 ticks (R152, R167). -/
def State.usableAnchor (service : Nat) (s : State) : Option Anchor :=
  match (s.services.get service).bind ServiceEntry.anchor with
  | some a =>
    if s.slotDiff s.currentNumber a.slot * s.site.period ≤ Config.anchorAgeMax then some a else none
  | none => none

/-- The predicted clock of an anchor for a slot number (R168). -/
def State.predictedClock (a : Anchor) (g : Nat) (s : State) : Clock := s.clockAfter a.clock (s.slotDiff g a.slot)

/-- A channel's playback at splice start, before its walk (R152, R169). R151 and R152 set no clip start, offset, next cell
index and lag noticed where the walk then stops at a HOLD or at END: the first two are absent, the index 0 and the flag
clear (DESIGN CHOICE, log entry 35). -/
def Playback.begun (clock : Clock) : Playback :=
  { cursor := 0, stack := [], clip := none, nextCell := 0, clipStart := none, clipEnd := none, clock := clock
    offset := none, exitPending := false, lastLag := none, lagNoticed := false, started := [] }

/-- The splice start of a PRIMED record whose splice slot `gS` is reached (R152). -/
def State.spliceStart (k : Nat) (r : Insertion) (gS : Pos) (s : State) : State :=
  match s.usableAnchor r.service with
  | none => s.finish k r .abortedNoClock
  | some a =>
    let new := { r with state := .onLocal, startSlot := s.currentPos }
    ((((s.setPlay r.channel (.begun (s.predictedClock a (gS.number s.n)))).setSplice r.service .onLocal
      (some k)).putRecord k new).insertNotice k r.state new .splice).walkFrom k 0 gS

/-! ## A slot boundary at the Insertion Engine (R152, R155) -/

/-- Position `p`, if there is one, is reached at the current position. -/
def State.reachedNow (p : Option Pos) (s : State) : Bool :=
  match p, s.currentPos with
  | some p, some cur => p.reached s.n cur
  | _, _ => false

/-- Step 1 of R155: a play whose clip end is reached is over. -/
def State.endPlay (r : Insertion) (p : Playback) (s : State) : State × Bool :=
  if p.clip.isSome && s.reachedNow p.clipEnd then (s.setPlay r.channel { p with clip := none }, true) else (s, false)

/-- Step 2 of R155: the break slot reached. -/
def State.reachBreak (k : Nat) (r : Insertion) (s : State) : State :=
  if s.reachedNow r.breakSlot then s.takeBreak k .endRule .complete else s

/-- Step 3 of R155: RETURNING once the break is taken and no play is in progress, or the walk after a play that ended. -/
def State.moveOn (k : Nat) (ended : Bool) (s : State) : State :=
  match s.insertions.get k, s.currentPos with
  | some r, some cur =>
    match decide (r.state = .onLocal), s.playOf r.channel with
    | true, some p =>
      (match r.brk with
        | some (cause, _) => if p.clip.isNone then s.toReturning k r p cause else s
        | none => if ended then s.walkFrom k (p.cursor + 1) cur else s)
    | true, none => s
    | false, _ => s
  | _, _ => s

/-- A LOCAL record's channel at a slot boundary (R155). -/
def State.channelBoundary (k : Nat) (r : Insertion) (s : State) : State :=
  match s.playOf r.channel with
  | none => s
  | some p =>
    let (s, ended) := s.endPlay r p
    (s.reachBreak k r).moveOn k ended

/-- One record at a slot boundary, before the slot's cell is formed (R152, R155). -/
def State.recordBoundary (s : State) (k : Nat) : State :=
  match s.insertions.get k with
  | none => s
  | some r =>
    match r.state, r.splice with
    | .primed, some gS => if s.reachedNow (some gS) then s.spliceStart k r gS else s
    | .onLocal, _ => s.channelBoundary k r
    | _, _ => s

/-- The records at a slot boundary, in increasing order of index (R198). -/
def State.insertionBoundary (s : State) : State := (List.range 16).foldl State.recordBoundary s

/-! ## Pacing and the Stamp Rebaser (R156, R157, R172 to R176) -/

/-- The due cell of a channel for the current slot (R156). -/
structure DueCell where
  record : Nat
  insertion : Insertion
  channel : Nat
  play : Playback
  clip : Nat
  entry : ClipEntry
  cell : ClipRecord
  due : Pos
  now : Pos
  lag : Int
  offset : Clock
deriving DecidableEq, Repr

/-- The next cell of a LOCAL record's play, with its lag at the current slot, whether due or not. -/
def State.nextCellOf (c k : Nat) (r : Insertion) (p : Playback) (s : State) : Option DueCell :=
  match s.clipInPlay p, p.clipStart, s.currentPos, p.offset with
  | some (clip, e), some gC, some cur, some offset =>
    let cell := s.clipRecord (e.base + p.nextCell)
    let due := gC.add s.n cell.due
    if p.nextCell < e.written then
      some { record := k, insertion := r, channel := c, play := p, clip := clip, entry := e, cell := cell, due := due
             now := cur, lag := Pos.diff s.n cur due, offset := offset }
    else none
  | _, _, _, _ => none

/-- The due cell of channel `c` for the current slot, if it has one (R156). -/
def State.dueCell (c : Nat) (s : State) : Option DueCell :=
  match s.channels.get c with
  | none => none
  | some ch =>
    match s.insertions.get ch.record, ch.play with
    | some r, some p =>
      if r.state = .onLocal then
        match s.nextCellOf c ch.record r p with
        | some d => if 0 ≤ d.lag ∧ (p.exitPending && d.cell.start) = false then some d else none
        | none => none
      else none
    | _, _ => none

/-- A service's component by its number. -/
def State.componentOf (service k : Nat) (s : State) : Option Component :=
  match s.services.get service with
  | some e => e.components[k]?
  | none => none

/-- The continuity count of the next local cell of a component (R173). -/
def Component.nextContinuity (c : Component) : Nat := if c.emittedYet then (c.continuity + 1) % 16 else 0

/-- The payload of a local cell (R175, R176): the clock field moved by the offset and the lag, the presentation stamp by
the offset alone. -/
def State.rebasedPayload (d : DueCell) (s : State) : Bytes :=
  let old := d.cell.payload
  let clocked := if d.cell.clock then
      writeClock old 0 (s.clockAfter (payloadClock old 0 + d.offset) d.lag)
    else old
  let at_ := if d.cell.clock then 5 else 0
  if d.cell.stamped then writeClock clocked at_ (payloadClock old at_ + d.offset) else clocked

/-- The emission cell formed from a due cell (R172). A pinned clip's component is one of its service's (R134, R172); in a
state where it is not, the cell carries the null label. -/
def State.localCell (d : DueCell) (s : State) : Bytes :=
  let comp := (s.componentOf d.insertion.service d.cell.component).getD (Component.fresh 4095)
  formCell comp.label comp.nextContinuity d.cell.clock d.cell.start d.cell.stamped
    (!decide (d.cell.component ∈ d.play.started)) (s.rebasedPayload d)

/-- The later of two positions. -/
def Pos.later (n : Nat) (p q : Pos) : Pos := if 0 ≤ Pos.diff n p q then p else q

/-- A lag as it is held and reported (R157). -/
def heldLag (lag : Int) : Nat := min lag.toNat 16777215

/-- The lag of this cell raises an INSERT_LAG notice (R157). -/
def State.lagRaises (d : DueCell) (s : State) : Bool := decide ((s.n : Int) < d.lag) && !d.play.lagNoticed

/-- The playback once its due cell has been given (R154, R156, R157, R174). -/
def State.playAfter (d : DueCell) (s : State) : Playback :=
  { d.play with
    nextCell := d.play.nextCell + 1
    lastLag := some (heldLag d.lag)
    lagNoticed := d.play.lagNoticed || s.lagRaises d
    started := if d.cell.component ∈ d.play.started then d.play.started else d.play.started ++ [d.cell.component]
    clipEnd := if d.play.nextCell + 1 = d.entry.written then
        d.play.clipStart.map (fun gC =>
          Pos.later s.n (gC.add s.n d.entry.duration) (d.now.add s.n 1))
      else d.play.clipEnd }

/-- The exit examined after a cell was given (R159). -/
def State.examineExit (d : DueCell) (r : Insertion) (p : Playback) (s : State) : State :=
  match p.exitPending && s.exitComplete p, r.brk with
  | true, some (cause, _) => s.toReturning d.record r p cause
  | _, _ => s

/-- A due cell given for the current slot (R156, R157): the record's, the channel's and the service's counts, the
INSERT_LAG notice, and the exit examined. The slot's cell is `localCell`. -/
def State.giveCell (d : DueCell) (s : State) : State :=
  let p := s.playAfter d
  let r := { d.insertion with localCells := bump d.insertion.localCells }
  let given := ((s.setPlay (some d.channel) p).putRecord d.record r).updateService r.service
    (fun e => { e with localCells := bump e.localCells })
  let noticed := if s.lagRaises d then
      given.raise (.insertLag d.record d.channel d.clip d.play.nextCell (d.due.number s.n) (heldLag d.lag))
    else given
  noticed.examineExit d r p

/-! ## Cues (R146 to R150) -/

/-- The types of a cue (R203). -/
inductive CueKind where
  | out
  | in
  | cancel
deriving DecidableEq, Repr

/-- A cue's type byte (R203). -/
def readCueKind (b : Byte) : Option CueKind :=
  if b = 1 then some .out else if b = 2 then some .in else if b = 3 then some .cancel else none

/-- A cue's payload as it is read (R203). -/
structure CuePayload where
  id : BitVec 32
  stamp : Nat
  length : Nat
  kind : Byte
  mask : BitVec 16
deriving DecidableEq, Repr

/-- A CUE payload read (R203). -/
def readCue (payload : Bytes) : CuePayload :=
  { id := BitVec.ofNat 32 (fieldNat payload 0 4), stamp := fieldNat payload 4 4, length := fieldNat payload 8 4
    kind := byteAt payload 12, mask := BitVec.ofNat 16 (fieldNat payload 13 2) }

/-- A cue that passed its three tests, with its cue slot's position and its lead (R146). -/
structure TimedCue where
  service : Nat
  id : BitVec 32
  kindByte : Byte
  kind : CueKind
  length : Nat
  slot : Pos
  lead : Int
deriving DecidableEq, Repr

/-- The position whose slot number is `g` and which lies nearest the current position (R146). -/
def State.nearestPos (g : Nat) (cur : Pos) (s : State) : Pos := cur.add s.n (s.slotDiff g (cur.number s.n))

/-- A cue ignored (R146). -/
def State.ignoreCue (service : Nat) (id : BitVec 32) (kind : Byte) (reason : CueReason) (record : Option Nat)
    (s : State) : State :=
  s.raise (.cueIgnored service id kind reason record)

/-- The cue's lead is far enough for its slot (R147, R148): at least two slots. -/
def State.leadTooShort (c : TimedCue) (s : State) : Bool := decide (c.lead < 2 * s.site.period)

/-- The break slot an end rule and a break length give for a splice slot (R142, R148). -/
def breakSlotFor (n : Nat) (rule : EndRule) (length : Nat) (gS : Pos) : Option Pos :=
  match rule with
  | .fixed l => some (gS.add n l)
  | .reel => if 0 < length then some (gS.add n length) else none
  | .cue => if 0 < length then some (gS.add n length) else none

/-- The break slot a repeated OUT sets (R147): as a first OUT does, but a break length of 0 under REEL or CUE moves the
break slot with the splice slot. -/
def breakSlotMoved (n : Nat) (r : Insertion) (length : Nat) (gS : Pos) : Option Pos :=
  match breakSlotFor n r.endRule length gS, r.breakSlot, r.splice with
  | some p, _, _ => some p
  | none, some old, some oldS => some (old.add n (Pos.diff n gS oldS))
  | none, some old, none => some old
  | none, none, _ => none

/-- A repeated OUT of the record that holds the service (R147). -/
def State.repeatOut (k : Nat) (r : Insertion) (c : TimedCue) (s : State) : State :=
  match r.state with
  | .primed =>
    if s.leadTooShort c || decide ((Config.farMax : Int) < c.lead) || s.reachedNow (some c.slot) then s
    else s.putRecord k { r with splice := some c.slot, breakSlot := breakSlotMoved s.n r c.length c.slot }
  | .armed => s
  | .onLocal => s
  | .returning => s
  | .done => s

/-- A record takes a channel and becomes PRIMED (R142, R148). -/
def State.prime (k ch : Nat) (r : Insertion) (s : State) : State :=
  (({ s with channels := s.channels.put ch { record := k, play := none } } : State).setSplice r.service .primed
    (some k)).putRecord k r

/-- The cue's id triggers the record (R138, R148). -/
def Trigger.matches (t : Trigger) (id : BitVec 32) : Bool :=
  match t with
  | .cue own => decide (own = id) || decide (own = BitVec.allOnes 32)
  | .atSlot _ _ => false

/-- The ARMED record an OUT cue is matched to (R148): the lowest-numbered. -/
def State.armedMatch (c : TimedCue) (s : State) : Option (Nat × Insertion) :=
  s.insertions.firstSuch (fun _ r =>
    decide (r.state = .armed) && decide (r.service = c.service) && r.trigger.matches c.id)

/-- The record an OUT cue primes (R148). -/
def Insertion.primedBy (r : Insertion) (n ch : Nat) (c : TimedCue) : Insertion :=
  { r with
    state := .primed, matched := some c.id, splice := some c.slot, channel := some ch
    breakSlot := breakSlotFor n r.endRule c.length c.slot }

/-- An OUT cue at the ARMED record it matches (R148). -/
def State.primeByCue (k : Nat) (r : Insertion) (c : TimedCue) (s : State) : State :=
  if (s.holder c.service).isSome then s.ignoreCue c.service c.id c.kindByte .busy (some k)
  else if s.leadTooShort c || s.reachedNow (some c.slot) then s.finish k r .abortedLateCue
  else if (Config.farMax : Int) < c.lead then s.ignoreCue c.service c.id c.kindByte .far (some k)
  else
    match s.freeChannel with
    | none => s.finish k r .abortedNoChannel
    | some ch =>
      let new := r.primedBy s.n ch c
      (s.prime k ch new).insertNotice k r.state new .outCue

/-- An OUT cue (R147, R148). -/
def State.outCue (c : TimedCue) (s : State) : State :=
  let unmatched := match s.armedMatch c with
    | some (k, r) => s.primeByCue k r c
    | none => s
  match s.holder c.service with
  | some (k, r) => if r.matched = some c.id then s.repeatOut k r c else unmatched
  | none => unmatched

/-- A PRIMED record returns to ARMED (R149). -/
def State.unprime (k : Nat) (r : Insertion) (s : State) : State :=
  let new := { r with state := .armed, splice := none, breakSlot := none, matched := none, channel := none }
  (((s.releaseChannel r.channel).setSplice r.service .network none).putRecord k new).insertNotice k r.state new
    (.brk .cancelCue)

/-- A CANCEL cue (R149). -/
def State.cancelCue (c : TimedCue) (s : State) : State :=
  match s.holder c.service with
  | none => s
  | some (k, r) =>
    if r.matched = some c.id then
      match r.state with
      | .primed => s.unprime k r
      | .onLocal => s.takeBreak k .cancelCue .cutShort
      | .armed => s
      | .returning => s
      | .done => s
    else s

/-- An IN cue may end the record (R150): by its id or its AT trigger, under end rule CUE or REEL, before its break. -/
def Insertion.endedByIn (r : Insertion) (id : BitVec 32) : Bool :=
  (decide (r.matched = some id) || (match r.trigger with
    | .atSlot _ _ => true
    | .cue _ => false)) &&
  (decide (r.endRule = .cue) || decide (r.endRule = .reel)) && r.brk.isNone

/-- An IN cue (R150). -/
def State.inCue (c : TimedCue) (s : State) : State :=
  match s.holder c.service with
  | none => s
  | some (k, r) =>
    if r.state = .onLocal ∧ r.endedByIn c.id = true then
      let s' := s.putRecord k { r with breakSlot := some c.slot }
      if s.reachedNow (some c.slot) then s'.takeBreak k .endRule .complete else s'
    else s

/-- A cue acts by its type (R146). -/
def State.actOnCue (c : TimedCue) (s : State) : State :=
  match c.kind with
  | .out => s.outCue c
  | .in => s.inCue c
  | .cancel => s.cancelCue c

/-- A cue taken (R146): its form, zone and time are tested in this order, and one that passes is timed and acts. -/
def State.handleCue (service : Nat) (arrival : Option Nat) (p : CuePayload) (s : State) : State :=
  match readCueKind p.kind with
  | none => s.ignoreCue service p.id p.kind .format none
  | some kind =>
    if Config.stampCycle ≤ p.stamp ∨ p.id = BitVec.allOnes 32 then s.ignoreCue service p.id p.kind .format none
    else if p.mask.getLsbD s.site.zone = false then s.ignoreCue service p.id p.kind .zone none
    else
      match arrival, s.currentPos with
      | some a, some cur =>
        let g := s.releaseSlot p.stamp
        s.actOnCue { service := service, id := p.id, kindByte := p.kind, kind := kind, length := p.length
                     slot := s.nearestPos g cur, lead := s.holdTime g a }
      | _, _ => s.ignoreCue service p.id p.kind .untimed none

/-- The first cue that waits, taken (R146). A cue carries the service index of its CUE-class stream (R44). -/
def State.takeCue (s : State) : State :=
  match s.toCue with
  | [] => s
  | h :: rest =>
    let s : State := { s with toCue := rest }
    match h.service with
    | some service => s.handleCue service h.item.arrivalStamp (readCue (cellPayload h.item.cell))
    | none => s

/-! ## The return limit (R161) -/

/-- The expiry of a record's return-limit timer (R161): the return is forced. -/
def State.expireReturn (k : Nat) (s : State) : State :=
  match s.insertions.get k with
  | some r => if r.timer = some 0 then s.endReturn k r .forcedReturn else s
  | none => s

/-! ## Requests (R141 to R145) -/

/-- Every clip that a reel's PLAY steps name satisfies `p` (R141). -/
def State.clipsAll (steps : List ReelStep) (p : ClipEntry → Bool) (s : State) : Bool :=
  steps.all (fun step =>
    match step with
    | .play c =>
      (match s.clips.get c with
        | some e => p e
        | none => false)
    | .loop _ => true
    | .next => true
    | .hold => true)

/-- The ticks from now to the start of a slot given by its epoch second and slot (R141). Site time is taken at the handling
of the request, not when its frame was taken (R185, R188; DESIGN CHOICE, log entry 33). -/
def State.distanceTo (second : Epoch) (slot : Nat) (s : State) : Int :=
  (second - s.time.second).toInt * Config.ticksPerSecond + slot * s.site.period - s.time.tick

/-- A record newly armed (R142). -/
def ArmRequest.armed (q : ArmRequest) : Insertion :=
  { state := .armed, result := none, service := q.service, trigger := q.trigger, matched := none, reel := q.reel
    endRule := q.endRule, returnLimit := q.returnLimit, splice := none, channel := none, breakSlot := none, brk := none
    startSlot := none, endSlot := none, localCells := 0, nulls := 0, timer := none }

/-- A position as a reply carries it: its epoch second and its slot. -/
def Pos.fields (p : Pos) : Bytes := beBytes 4 p.second.toNat ++ beBytes 3 p.slot

/-- INSERT.ARM with an AT trigger, its last five checks and its acceptance (R141, R142). -/
def handleArmAt (q : ArmRequest) (second : Epoch) (slot : Nat) (s : State) : Answer :=
  let distance := s.distanceTo second slot
  if !s.time.epochKnown then .refuse .untimed
  else if distance < 2 * s.site.period then .refuse .late
  else if (Config.farMax : Int) < distance then .refuse .range
  else if s.spliceOf q.service ≠ .network then .refuse .conflict
  else
    match s.freeChannel with
    | none => .refuse .noChannel
    | some ch =>
      let gS : Pos := { second := second, slot := slot }
      let r : Insertion := { q.armed with
        state := .primed, splice := some gS, channel := some ch, breakSlot := breakSlotFor s.n q.endRule 0 gS }
      .ok ((s.changeHolds q.reel (· + 1)).prime q.record ch r)
        (beBytes 1 r.state.code ++ encOptNat 1 (some ch) ++ encOpt 7 Pos.fields (some gS))

/-- INSERT.ARM at the Insertion Engine (R141, R142). -/
def handleInsertArm (b : InsertArmBody) (s : State) : Answer :=
  match readInsertArm s.n b with
  | none => .refuse .range
  | some q =>
    let busy : Bool := match s.insertions.get q.record with
      | some r => decide (r.state ≠ .done)
      | none => false
    let steps := s.reelSteps q.reel
    if busy then .refuse .busy
    else
      match s.services.get q.service with
      | none => .refuse .noService
      | some service =>
        if steps.isEmpty || !s.clipsAll steps (fun e => e.ready) then .refuse .notReady
        else if !s.clipsAll steps (fun e => decide (e.period = s.site.period) &&
            decide (e.highest.getD 0 < service.components.length)) then .refuse .mismatch
        else
          match q.trigger with
          | .cue _ =>
            .ok ((s.changeHolds q.reel (· + 1)).putRecord q.record q.armed)
              (beBytes 1 q.armed.state.code ++ encOptNat 1 none ++ encOpt 7 Pos.fields none)
          | .atSlot second slot => handleArmAt q second slot s

/-- INSERT.CANCEL at the Insertion Engine (R143). -/
def handleInsertCancel (k : Nat) (s : State) : Answer :=
  if 15 < k then .refuse .range
  else
    match s.insertions.get k with
    | none => .refuse .state
    | some r =>
      if r.state = .armed ∨ r.state = .primed then .ok (s.enterDone k r .abortedHost) [] else .refuse .state

/-- A channel stands at END (R144, R151). -/
def State.atEnd (r : Insertion) (p : Playback) (s : State) : Bool :=
  p.clip.isNone && decide ((s.reelSteps r.reel).length ≤ p.cursor)

/-- INSERT.RETURN at the Insertion Engine (R144). -/
def handleInsertReturn (k : Nat) (s : State) : Answer :=
  if 15 < k then .refuse .range
  else
    match s.insertions.get k with
    | none => .refuse .state
    | some r =>
      if r.state = .onLocal ∧ r.brk = none then
        let result := match s.playOf r.channel with
          | some p => if s.atEnd r p then Result.complete else Result.cutShort
          | none => Result.cutShort
        let after := s.takeBreak k .host result
        let returning := match after.insertions.get k with
          | some r' => decide (r'.state = .returning)
          | none => false
        .ok after (beBytes 1 result.code ++ encFlag returning)
      else .refuse .state

/-- INSERT.CLEAR at the Insertion Engine (R145). -/
def handleInsertClear (k : Nat) (s : State) : Answer :=
  if 15 < k then .refuse .range
  else
    match s.insertions.get k with
    | none => .refuse .state
    | some r => if r.state = .done then .ok { s with insertions := s.insertions.del k } [] else .refuse .state

/-- A position as INSERT.READ gives it: also as a slot number (R145; log entries 18, 20). -/
def Pos.fullFields (n : Nat) (p : Pos) : Bytes := p.fields ++ beBytes 3 (p.number n)

/-- A trigger in a reply: its choice, its cue id, its epoch second and slot (R201). -/
def Trigger.fields : Trigger → Bytes
  | .cue id => beBytes 1 0 ++ beBytes 4 id.toNat ++ List.replicate 7 0
  | .atSlot second slot => beBytes 1 1 ++ List.replicate 4 0 ++ beBytes 4 second.toNat ++ beBytes 3 slot

/-- An end rule in a reply: its choice and its length (R201). -/
def EndRule.fields : EndRule → Bytes
  | .reel => beBytes 1 0 ++ beBytes 3 0
  | .cue => beBytes 1 1 ++ beBytes 3 0
  | .fixed l => beBytes 1 2 ++ beBytes 3 l

/-- A frame of a loop stack in a reply; ENDLESS is 0 (R201). -/
def LoopFrame.fields (f : LoopFrame) : Bytes := beBytes 1 f.bodyStart ++ beBytes 1 (f.remaining.getD 0)

/-- A record's fields in the order of R138; an IDLE record has its state alone. -/
def recordFields (n : Nat) (r : Option Insertion) : Bytes :=
  beBytes 1 ((r.map (fun x => x.state.code)).getD 0) ++
    encOptNat 1 ((r.bind Insertion.result).map Result.code) ++
    encOptNat 1 (r.map Insertion.service) ++
    encOpt 12 Trigger.fields (r.map Insertion.trigger) ++
    encOptNat 4 ((r.bind Insertion.matched).map BitVec.toNat) ++
    encOptNat 1 (r.map Insertion.reel) ++
    encOpt 4 EndRule.fields (r.map Insertion.endRule) ++
    encOptNat 4 (r.map Insertion.returnLimit) ++
    encOpt 10 (Pos.fullFields n) (r.bind Insertion.splice) ++
    encOptNat 1 (r.bind Insertion.channel) ++
    encOpt 10 (Pos.fullFields n) (r.bind Insertion.breakSlot) ++
    encOpt 2 (fun b => beBytes 1 (BreakCause.code b.1) ++ beBytes 1 (Result.code b.2)) (r.bind Insertion.brk) ++
    encOpt 10 (Pos.fullFields n) (r.bind Insertion.startSlot) ++
    encOpt 10 (Pos.fullFields n) (r.bind Insertion.endSlot) ++
    encOptNat 4 (r.map Insertion.localCells) ++ encOptNat 4 (r.map Insertion.nulls)

/-- A held channel's state in the order of R151, with the return-limit ticks left (R145, R171); a channel that holds its
insertion index alone, or none, has no other field, and its loop stack is absent with them (R201). The frames of the loop
stack stand with the top frame first (DESIGN CHOICE, log entry 18). The next cell index, a kind R201 does not name, is
carried in the fewest bytes that hold 0 to 4,194,304 (DEDUCED, log entry 18). -/
def playFields (n : Nat) (p : Option Playback) (timer : Option Nat) : Bytes :=
  encOptNat 1 (p.map Playback.cursor) ++
    encOpt 1 (encList 1 LoopFrame.fields) (p.map Playback.stack) ++
    encOptNat 1 (p.bind Playback.clip) ++
    encOptNat 3 (p.map Playback.nextCell) ++
    encOpt 10 (Pos.fullFields n) (p.bind Playback.clipStart) ++
    encOpt 10 (Pos.fullFields n) (p.bind Playback.clipEnd) ++
    encOptNat 5 (p.map (fun x => x.clock.toNat)) ++
    encOptNat 5 ((p.bind Playback.offset).map BitVec.toNat) ++
    encOpt 1 encFlag (p.map Playback.exitPending) ++
    encOptNat 3 (p.bind Playback.lastLag) ++
    encOptNat 4 timer

/-- INSERT.READ at the Insertion Engine (R145). -/
def handleInsertRead (k : Nat) (s : State) : Answer :=
  if 15 < k then .refuse .range
  else
    let r := s.insertions.get k
    .ok s (recordFields s.n r ++ playFields s.n (s.playOf (r.bind Insertion.channel)) (r.bind Insertion.timer))

/-! ## Meanings -/

/-- CUE_TAKE (R146): of the first cue that waits. -/
def execCueTake (s : State) : Host.Outcome State Fault Refusal := .next s.takeCue

/-- RETURN_LIMIT_EXPIRY (R161): the timer of a record has run out. -/
def execReturnLimitExpiry (record : Nat) (s : State) : Host.Outcome State Fault Refusal :=
  .next (s.expireReturn record)

/-- INSERT.ARM (R141). -/
def execInsertArm (tag : BitVec 16) (body : InsertArmBody) (s : State) : Host.Outcome State Fault Refusal :=
  .next (s.request (.insertArm tag body) 0x0601#16 tag (handleInsertArm body))

/-- INSERT.CANCEL (R143). -/
def execInsertCancel (tag : BitVec 16) (record : Byte) (s : State) : Host.Outcome State Fault Refusal :=
  .next (s.request (.insertCancel tag record) 0x0602#16 tag (handleInsertCancel record.toNat))

/-- INSERT.RETURN (R144). -/
def execInsertReturn (tag : BitVec 16) (record : Byte) (s : State) : Host.Outcome State Fault Refusal :=
  .next (s.request (.insertReturn tag record) 0x0603#16 tag (handleInsertReturn record.toNat))

/-- INSERT.CLEAR (R145). -/
def execInsertClear (tag : BitVec 16) (record : Byte) (s : State) : Host.Outcome State Fault Refusal :=
  .next (s.request (.insertClear tag record) 0x0604#16 tag (handleInsertClear record.toNat))

/-- INSERT.READ (R145). -/
def execInsertRead (tag : BitVec 16) (record : Byte) (s : State) : Host.Outcome State Fault Refusal :=
  .next (s.request (.insertRead tag record) 0x0605#16 tag (handleInsertRead record.toNat))

end Sys2Proof.Machine
end

