-- ==== Sys2Proof/Machine/Assembler.lean ====
section
/-! DEFINITION. The Assembler and the Output Port (06): the cell of each slot, its recording and its presentation, the
permit line at a slot boundary, and SITE.CONFIG and SITE.READ. -/

namespace Sys2Proof.Machine

/-! ## The ring take (R87) -/

/-- The take of slot `g` (R87): the network candidate, if the entry holds the tag; a stale cell is counted late. -/
def State.takeRing (g : Nat) (s : State) : State × Option RingEntry :=
  match s.ring.get (g % Config.ringSize) with
  | none => (s, none)
  | some e =>
    let taken : State := { s with ring := s.ring.del (g % Config.ringSize) }
    if e.tag = g then (taken, some e)
    else ({ taken with
      streams := countStream s.streams e.stream e.origin (cellLabel e.cell) e.cls StreamCounts.bumpLate }, none)

/-! ## A network candidate (R98 to R101) -/

/-- A service's clock anchor from a candidate that is a CLOCK cell of its clock label (R98). -/
def State.updateAnchor (k g : Nat) (cell : Bytes) (s : State) : State :=
  s.updateService k (fun e =>
    if cellIsClock cell && decide (e.clockLabel = some (cellLabel cell)) then
      { e with anchor := some { clock := payloadClock (cellPayload cell) 0, slot := g } }
    else e)

/-- Some component of a service holds the label and awaits DISC (R99, R177). -/
def State.awaits (k label : Nat) (s : State) : Bool :=
  match s.services.get k with
  | some e => e.components.any (fun c => decide (c.label = label) && c.awaitDisc)
  | none => false

/-- A SERVICE candidate passed on (R99): with DISC when its component awaits it, and the flag is then cleared. -/
def State.passOn (k : Nat) (cell : Bytes) (s : State) : State × Bytes :=
  if s.awaits k (cellLabel cell) then
    (s.updateService k (fun e => { e with
      components := e.components.map (fun c => if c.label = cellLabel cell then { c with awaitDisc := false } else c) }),
      withDisc cell)
  else (s, cell)

/-- A null cell in a slot of a spliced service: counted at the service and at the record (R100, R101, R138). -/
def State.countNull (k record : Nat) (s : State) : State :=
  let s := s.updateService k (fun e => { e with nulls := bump e.nulls })
  { s with insertions := s.insertions.update record (fun r => { r with nulls := bump r.nulls }) }

/-- A SERVICE candidate replaced (R100, R101). -/
def State.countReplaced (k : Nat) (s : State) : State :=
  s.updateService k (fun e => { e with replaced := bump e.replaced })

/-- A vacated slot of a LOCAL service (R100): the channel's due cell, or the null cell. -/
def State.vacated (k record : Nat) (channel : Option Nat) (s : State) : State × Bytes :=
  match channel.bind (fun c => s.dueCell c) with
  | some d => (s.giveCell d, s.localCell d)
  | none => (s.countNull k record, nullCell)

/-- A SERVICE candidate of a RETURNING service (R101): a START cell on the clock label ends the return and is passed on;
any other is replaced by the null cell. -/
def State.returningCell (k record : Nat) (r : Insertion) (cell : Bytes) (s : State) : State × Bytes :=
  let ends := cellIsStart cell && decide ((s.services.get k).bind ServiceEntry.clockLabel = some (cellLabel cell))
  match ends, r.brk with
  | true, some (_, result) => (s.endReturn record r result).passOn k cell
  | _, _ => ((s.countReplaced k).countNull k record, nullCell)

/-- A SERVICE candidate by its service's splice state (R99 to R101). -/
def State.serviceCell (k : Nat) (cell : Bytes) (s : State) : State × Bytes :=
  match s.spliceOf k, s.holder k with
  | .onLocal, some (record, r) => (s.countReplaced k).vacated k record r.channel
  | .returning, some (record, r) => s.returningCell k record r cell
  | .onLocal, none => s.passOn k cell
  | .returning, none => s.passOn k cell
  | .network, _ => s.passOn k cell
  | .primed, _ => s.passOn k cell

/-- The slot's cell from its network candidate (R97 step 2). -/
def State.networkCell (g : Nat) (e : RingEntry) (s : State) : State × Bytes :=
  match e.cls, e.service with
  | .service, some k => (s.updateAnchor k g e.cell).serviceCell k e.cell
  | .service, none => (s, e.cell)
  | .shared, _ => (s, e.cell)
  | .cue, _ => (s, e.cell)
  | .timing, _ => (s, e.cell)
  | .drop, _ => (s, e.cell)

/-! ## The slot plan (R103 to R105) -/

/-- A SITE entry (R104): the cell at the carousel pointer, which advances, or the null cell. -/
def State.siteCell (s : State) : State × Bytes :=
  match s.assembler.carousel[s.assembler.pointer]? with
  | some cell =>
    let next := s.assembler.pointer + 1
    ({ s with assembler := { s.assembler with
        pointer := if next < s.assembler.carousel.length then next else 0 } }, cell)
  | none => (s, nullCell)

/-- The channels in the order the SPARE arbiter offers them a slot (R105). -/
def spareOrder (lastGranted : Nat) : List Nat := (List.range 8).map (fun i => (lastGranted + 1 + i) % 8)

/-- The first channel in the arbiter's order with a due cell (R105). -/
def State.spareGrant (s : State) : Option DueCell := (spareOrder s.assembler.lastGranted).findSome? (fun c => s.dueCell c)

/-- A SPARE entry (R105): granted to a channel, or treated as SITE. -/
def State.spareCell (s : State) : State × Bytes :=
  match s.spareGrant with
  | some d =>
    let given := s.giveCell d
    ({ given with assembler := { given.assembler with lastGranted := d.channel } }, s.localCell d)
  | none => s.siteCell

/-- The slot's cell from the active bank (R103). -/
def State.planCell (s : State) : State × Bytes :=
  let bank := s.assembler.activeBank
  match bank.entry (s.assembler.slot % bank.length) with
  | .null => (s, nullCell)
  | .site => s.siteCell
  | .spare => s.spareCell

/-- The cell of the current slot (R97): of its network candidate, or of the slot plan. -/
def State.formCell (s : State) : State × Bytes :=
  match s.slotNumber with
  | none => s.planCell
  | some g =>
    match s.takeRing g with
    | (s, some e) => s.networkCell g e
    | (s, none) => s.planCell

/-! ## Recording and presenting (R102, R111 to R113) -/

/-- An emitted cell recorded against its component (R102). -/
def State.recordEmitted (cell : Bytes) (s : State) : State :=
  { s with services := s.services.mapAll (fun e => { e with
      components := e.components.map (fun c =>
        if c.label = cellLabel cell then { c with continuity := cellContinuity cell, emittedYet := true } else c) }) }

/-- The slot's cell at the Output Port (R111, R112): presented from byte 0 while output is enabled; while it is disabled a
cell being presented goes on to its end (log entry 28). -/
def State.present (cell : Bytes) (s : State) : State :=
  if s.site.output then
    { s with output := { s.output with
      rest := cell.drop 1, presenting := true, data := byteAt cell 0, valid := true, strobe := true
      mark := decide (s.assembler.slot = 0) } }
  else s

/-- The permit line at a slot boundary (R20, R113): asserted with byte 0 when its condition holds. -/
def State.assertPermit (s : State) : State := { s with output := { s.output with permit := s.permitCondition } }

/-- The current slot taken from site time (R95). -/
def State.beginSlot (s : State) : State :=
  { s with
    slotDue := false
    assembler := { s.assembler with
      slot := s.time.tick / s.site.period
      slotSecond := s.time.second
      slotNumber := s.time.siteStamp.map (fun stamp => stamp / s.site.period) } }

/-- A slot boundary (R95, R97): the insertion records take it, the slot's cell is formed, recorded and presented. -/
def State.takeSlotBoundary (s : State) : State :=
  let formed := s.beginSlot.insertionBoundary.formCell
  ((formed.1.recordEmitted formed.2).present formed.2).assertPermit

/-- Slot 0 of a second whose boundary has come with it, taken before SECOND_BOUNDARY (R190, R198; log entry 32): the slot
follows the second number, the anchors and the bank that the boundary leaves (R2, R109), and the boundary's notices wait
for SECOND_BOUNDARY. -/
def State.takeSlotFirst (s : State) : State :=
  let begun := ({ s with control := { s.control with notices := [] } } : State).takeSecondBoundary
  ({ begun with
    control := s.control, secondDue := true, heldNotices := some begun.control.notices } : State).takeSlotBoundary

/-- The slot boundary that is due is taken, before or after the second boundary that has come with it (R198). -/
def State.takeDueSlot (s : State) : State :=
  if s.secondDue && s.heldNotices.isNone then s.takeSlotFirst else s.takeSlotBoundary

/-- The Output Port as the next tick begins (R111, R112): the next byte of the cell; after the last one valid is
deasserted, and the data lines are at a free level while output is enabled (log entry 13), at 0 while it is disabled. -/
def State.outputTick (s : State) : State :=
  match s.output.rest with
  | b :: rest => { s with output := { s.output with rest := rest, data := b, strobe := false, mark := false } }
  | [] =>
    if s.site.output then
      { s with
        output := { s.output with
          data := Config.freeDataByte s.freeCount, valid := false, strobe := false, mark := false }
        freeCount := s.freeCount + 1 }
    else
      { s with output := { s.output with presenting := false, data := 0, valid := false, strobe := false, mark := false } }

/-! ## SITE.CONFIG and SITE.READ (R114 to R116) -/

/-- An insertion record is active (R133). -/
def State.someActive (s : State) : Bool := s.insertions.someSuch (fun _ r => decide (r.state ≠ .done))

/-- The effects of a change of P (R91, R115): the ring cleared without a count, every anchor invalidated, and the next slot
boundary at the next multiple of the new P. The current slot stays as it was taken until then (R96; log entry 31). -/
def State.changePeriod (s : State) : State :=
  ({ s with ring := [], slotDue := s.slotDue && (s.secondDue || decide (s.time.tick % s.site.period = 0)) } : State).invalidateAnchors

/-- The parameters in force after a SITE.CONFIG (R77). -/
def State.followSite (s : State) : State :=
  { s with release := { s.release with
    offset := if s.release.offsetSource = .configured then s.site.offset else s.release.offset
    dn := if s.release.dnSource = .configured then s.site.dn0 else s.release.dn } }

/-- The lines at a change of output enable between cells (R111): free on the data lines while enabled (log entry 13), 0
while disabled. A cell being presented is completed. -/
def State.changeOutput (s : State) : State :=
  if s.output.valid then s
  else if s.site.output then
    { s with output := { s.output with data := Config.freeDataByte s.freeCount }, freeCount := s.freeCount + 1 }
  else { s with output := { s.output with presenting := false, data := 0 } }

/-- An accepted SITE.CONFIG (R115). -/
def State.applySite (new : SiteConfig) (s : State) : State :=
  let old := s.site
  let s : State := { s with site := new }
  let s := if new.period ≠ old.period then s.changePeriod else s
  let s := s.followSite
  let s := if new.output ≠ old.output then s.changeOutput else s
  s.dropPermit

/-- SITE.CONFIG at the Assembler (R114). -/
def handleSiteConfig (b : SiteConfigBody) (s : State) : Answer :=
  match readSiteConfig b with
  | none => .refuse .range
  | some new =>
    if new.period ≠ s.site.period ∧ (s.site.output || new.output || s.someActive) = true then .refuse .busy
    else .ok (s.applySite new) []

/-- SITE.CONFIG's fields in a reply, in the order and at the widths of the request (R114, R201; log entry 17). -/
def SiteConfig.fields (c : SiteConfig) : Bytes :=
  beBytes 2 c.siteId ++ beBytes 1 c.zone ++ beBytes 4 c.period ++ beInt 4 c.offset ++ beBytes 4 c.latency ++
    beBytes 4 c.dn0 ++ beBytes 4 c.holdMax ++ encFirst c.output ++ encFirst c.mute ++ beBytes 2 c.linkTimeout

/-- SITE.READ at the Assembler (R116). -/
def handleSiteRead (s : State) : Answer :=
  .ok s (s.site.fields ++ beBytes 2 s.n ++ encFlag s.output.presenting ++ encFlag s.output.permit ++
    encFirst s.site.output ++ encFlag s.feedLive ++ encFirst s.site.mute ++ beBytes 1 s.time.config.policy.code ++
    beBytes 1 s.time.stepState.code ++ beBytes 3 s.assembler.slot ++
    encOptNat 3 s.slotNumber ++ beBytes 1 s.assembler.lastGranted)

/-! ## Meanings -/

/-- SLOT_BOUNDARY (R95): taken when it has come. -/
def execSlotBoundary (s : State) : Host.Outcome State Fault Refusal :=
  .next (if s.slotDue then s.takeDueSlot else s)

/-- SITE.CONFIG (R114). -/
def execSiteConfig (tag : BitVec 16) (body : SiteConfigBody) (s : State) : Host.Outcome State Fault Refusal :=
  .next (s.request (.siteConfig tag body) 0x0401#16 tag (handleSiteConfig body))

/-- SITE.READ (R116). -/
def execSiteRead (tag : BitVec 16) (s : State) : Host.Outcome State Fault Refusal :=
  .next (s.request (.siteRead tag) 0x0402#16 tag handleSiteRead)

end Sys2Proof.Machine
end

