-- ==== Sys2Proof/Machine/Requests.lean ====
section
/-! DEFINITION. Requests as frames carry them (R186, R201; 12, section 12.1): the kind of each request, its body, and the
reading of a body as a command. Log entry 17 lists the widths and layouts that R201 leaves to its reader. -/

namespace Sys2Proof.Machine

/-! ## Sending: kind, tag and body -/

/-- A field of `w` bits in `w / 8` bytes (R201). -/
def bitsBytes {w : Nat} (v : BitVec w) : Bytes := beBytes (w / 8) v.toNat

/-- A clip cell record in its 185 bytes (R202). -/
def RecordBody.bytes (r : RecordBody) : Bytes := [r.component] ++ bitsBytes r.due ++ [r.flags] ++ r.payload

/-- A reel step in its three bytes (log entry 17). -/
def StepBody.bytes (s : StepBody) : Bytes := [s.kind, s.clip, s.count]

/-- The kind and tag of a request; an event has none (12, Request kinds). -/
def requestKind : Instr → Option (BitVec 16 × BitVec 16)
  | .timeConfig tag _ => some (0x0101#16, tag)
  | .timeSet tag _ => some (0x0102#16, tag)
  | .timeRead tag => some (0x0103#16, tag)
  | .timeClear tag _ => some (0x0104#16, tag)
  | .originSet tag _ _ _ _ => some (0x0201#16, tag)
  | .originRead tag _ => some (0x0202#16, tag)
  | .streamSet tag _ => some (0x0203#16, tag)
  | .streamClear tag _ => some (0x0204#16, tag)
  | .streamRead tag _ => some (0x0205#16, tag)
  | .serviceSet tag _ => some (0x0206#16, tag)
  | .serviceRead tag _ => some (0x0207#16, tag)
  | .releaseRead tag => some (0x0301#16, tag)
  | .siteConfig tag _ => some (0x0401#16, tag)
  | .siteRead tag => some (0x0402#16, tag)
  | .planWrite tag _ => some (0x0403#16, tag)
  | .planSwapRequest tag _ => some (0x0404#16, tag)
  | .planCancel tag => some (0x0405#16, tag)
  | .planRead tag _ _ _ => some (0x0406#16, tag)
  | .sitecellSet tag _ => some (0x0407#16, tag)
  | .sitecellRead tag => some (0x0408#16, tag)
  | .clipDefine tag _ => some (0x0501#16, tag)
  | .clipWrite tag _ _ _ => some (0x0502#16, tag)
  | .clipClose tag _ => some (0x0503#16, tag)
  | .clipDelete tag _ => some (0x0504#16, tag)
  | .clipRead tag _ => some (0x0505#16, tag)
  | .reelSet tag _ _ => some (0x0506#16, tag)
  | .reelRead tag _ => some (0x0507#16, tag)
  | .insertArm tag _ => some (0x0601#16, tag)
  | .insertCancel tag _ => some (0x0602#16, tag)
  | .insertReturn tag _ => some (0x0603#16, tag)
  | .insertClear tag _ => some (0x0604#16, tag)
  | .insertRead tag _ => some (0x0605#16, tag)
  | .noticeFetch tag => some (0x0701#16, tag)
  | .systemIdentify tag => some (0x0702#16, tag)
  | .statusRead tag => some (0x0703#16, tag)
  | .countsRead tag _ _ _ => some (0x0704#16, tag)
  | .systemRestart tag => some (0x0705#16, tag)
  | .powerOnReset | .secondBoundary | .holdoverExpired | .ppsEdge _ | .referenceLost | .cellArrival _ _ | .runt _ _
  | .overlong _ _ | .linkTimeout _ | .cellTake _ | .releaseComputation | .timingCell | .cueTake | .slotBoundary
  | .returnLimitExpiry _ | .transferStart | .transferEnd | .syncError _ | .lengthError _ | .completeFrame _
  | .replyMadeReady | .replyRead _ | .linkByte _ _ _ | .controlLinkByte _ => none

/-- The body of a request (R201; log entry 17); an event has none. -/
def requestBody : Instr → Bytes
  | .timeConfig _ b =>
    [b.source, b.polarity, b.kp, b.ki] ++ bitsBytes b.window ++ [b.qualify] ++ bitsBytes b.holdover ++ [b.policy]
  | .timeSet _ second => bitsBytes second
  | .timeClear _ choice => [choice]
  | .originSet _ index valid originId links => [index, valid] ++ bitsBytes originId ++ [links]
  | .originRead _ index => [index]
  | .streamSet _ b => bitsBytes b.index ++ bitsBytes b.label ++ [b.origin, b.cls, b.service]
  | .streamClear _ index => bitsBytes index
  | .streamRead _ index => bitsBytes index
  | .serviceSet _ b =>
    [b.index, b.valid] ++ bitsBytes b.number ++ [BitVec.ofNat 8 b.labels.length] ++ b.labels.flatMap bitsBytes
  | .serviceRead _ index => [index]
  | .siteConfig _ b =>
    bitsBytes b.siteId ++ [b.zone] ++ bitsBytes b.period ++ bitsBytes b.offset ++ bitsBytes b.latency ++
      bitsBytes b.dn0 ++ bitsBytes b.holdMax ++ [b.outputEnable, b.feedLossMute] ++ bitsBytes b.linkTimeout
  | .planWrite _ b =>
    [b.bank] ++ bitsBytes b.first ++ beBytes 2 b.entries.length ++ b.entries ++ [b.lengthPresent] ++ bitsBytes b.length
  | .planSwapRequest _ second => bitsBytes second
  | .planRead _ bank first count => [bank] ++ bitsBytes first ++ bitsBytes count
  | .sitecellSet _ cells => [BitVec.ofNat 8 cells.length] ++ cells.flatten
  | .clipDefine _ b =>
    [b.clip] ++ bitsBytes b.base ++ bitsBytes b.capacity ++ bitsBytes b.duration ++ bitsBytes b.clock ++
      bitsBytes b.period
  | .clipWrite _ clip first records =>
    [clip] ++ bitsBytes first ++ [BitVec.ofNat 8 records.length] ++ records.flatMap RecordBody.bytes
  | .clipClose _ clip => [clip]
  | .clipDelete _ clip => [clip]
  | .clipRead _ clip => [clip]
  | .reelSet _ reel steps => [reel, BitVec.ofNat 8 steps.length] ++ steps.flatMap StepBody.bytes
  | .reelRead _ reel => [reel]
  | .insertArm _ b =>
    [b.record, b.service, b.trigger] ++ bitsBytes b.cueId ++ bitsBytes b.second ++ bitsBytes b.slot ++
      [b.reel, b.endRule] ++ bitsBytes b.length ++ [b.limitPresent] ++ bitsBytes b.limit
  | .insertCancel _ record => [record]
  | .insertReturn _ record => [record]
  | .insertClear _ record => [record]
  | .insertRead _ record => [record]
  | .countsRead _ scope index clear => [scope] ++ bitsBytes index ++ [clear]
  | .timeRead _ | .releaseRead _ | .siteRead _ | .planCancel _ | .sitecellRead _ | .noticeFetch _ | .systemIdentify _
  | .statusRead _ | .systemRestart _ => []
  | .powerOnReset | .secondBoundary | .holdoverExpired | .ppsEdge _ | .referenceLost | .cellArrival _ _ | .runt _ _
  | .overlong _ _ | .linkTimeout _ | .cellTake _ | .releaseComputation | .timingCell | .cueTake | .slotBoundary
  | .returnLimitExpiry _ | .transferStart | .transferEnd | .syncError _ | .lengthError _ | .completeFrame _
  | .replyMadeReady | .replyRead _ | .linkByte _ _ _ | .controlLinkByte _ => []

/-! ## Taking: a body read -/

/-- The field of `w` bits from byte `start` on (R201). -/
def fieldBits (w : Nat) (bs : Bytes) (start : Nat) : BitVec w := BitVec.ofNat w (fieldNat bs start (w / 8))

/-- `k` runs of `w` bytes each. -/
def takeRuns (w : Nat) : Nat → Bytes → List Bytes
  | 0, _ => []
  | k + 1, bs => bs.take w :: takeRuns w k (bs.drop w)

/-- A clip cell record from its 185 bytes (R202). -/
def readRecordBody (bs : Bytes) : RecordBody :=
  { component := byteAt bs 0, due := fieldBits 24 bs 1, flags := byteAt bs 4, payload := bs.drop 5 }

/-- A reel step from its three bytes (log entry 17). -/
def readStepBody (bs : Bytes) : StepBody := { kind := byteAt bs 0, clip := byteAt bs 1, count := byteAt bs 2 }

/-- What the Control Link's checks make of a request (R186). -/
inductive Reading where
  | unknown
  | format
  | request (i : Instr)
deriving DecidableEq, Repr

/-- A body of one length alone (R186). -/
def sized (n : Nat) (bs : Bytes) (i : Instr) : Reading := if bs.length = n then .request i else .format

/-- A request's kind and body checked and read (R186, R201). -/
def readRequest (kind tag : BitVec 16) (b : Bytes) : Reading :=
  if kind = 0x0101#16 then
    sized 11 b (.timeConfig tag
      { source := byteAt b 0, polarity := byteAt b 1, kp := byteAt b 2, ki := byteAt b 3, window := fieldBits 16 b 4
        qualify := byteAt b 6, holdover := fieldBits 24 b 7, policy := byteAt b 10 })
  else if kind = 0x0102#16 then sized 4 b (.timeSet tag (fieldBits 32 b 0))
  else if kind = 0x0103#16 then sized 0 b (.timeRead tag)
  else if kind = 0x0104#16 then sized 1 b (.timeClear tag (byteAt b 0))
  else if kind = 0x0201#16 then
    sized 7 b (.originSet tag (byteAt b 0) (byteAt b 1) (fieldBits 32 b 2) (byteAt b 6))
  else if kind = 0x0202#16 then sized 1 b (.originRead tag (byteAt b 0))
  else if kind = 0x0203#16 then
    sized 7 b (.streamSet tag
      { index := fieldBits 16 b 0, label := fieldBits 16 b 2, origin := byteAt b 4, cls := byteAt b 5
        service := byteAt b 6 })
  else if kind = 0x0204#16 then sized 2 b (.streamClear tag (fieldBits 16 b 0))
  else if kind = 0x0205#16 then sized 2 b (.streamRead tag (fieldBits 16 b 0))
  else if kind = 0x0206#16 then
    sized (5 + 2 * (byteAt b 4).toNat) b (.serviceSet tag
      { index := byteAt b 0, valid := byteAt b 1, number := fieldBits 16 b 2
        labels := (takeRuns 2 (byteAt b 4).toNat (b.drop 5)).map (fun r => fieldBits 16 r 0) })
  else if kind = 0x0207#16 then sized 1 b (.serviceRead tag (byteAt b 0))
  else if kind = 0x0301#16 then sized 0 b (.releaseRead tag)
  else if kind = 0x0401#16 then
    sized 27 b (.siteConfig tag
      { siteId := fieldBits 16 b 0, zone := byteAt b 2, period := fieldBits 32 b 3, offset := fieldBits 32 b 7
        latency := fieldBits 32 b 11, dn0 := fieldBits 32 b 15, holdMax := fieldBits 32 b 19
        outputEnable := byteAt b 23, feedLossMute := byteAt b 24, linkTimeout := fieldBits 16 b 25 })
  else if kind = 0x0402#16 then sized 0 b (.siteRead tag)
  else if kind = 0x0403#16 then
    sized (8 + fieldNat b 3 2) b (.planWrite tag
      { bank := byteAt b 0, first := fieldBits 16 b 1, entries := (b.drop 5).take (fieldNat b 3 2)
        lengthPresent := byteAt b (5 + fieldNat b 3 2), length := fieldBits 16 b (6 + fieldNat b 3 2) })
  else if kind = 0x0404#16 then sized 4 b (.planSwapRequest tag (fieldBits 32 b 0))
  else if kind = 0x0405#16 then sized 0 b (.planCancel tag)
  else if kind = 0x0406#16 then sized 5 b (.planRead tag (byteAt b 0) (fieldBits 16 b 1) (fieldBits 16 b 3))
  else if kind = 0x0407#16 then
    sized (1 + 184 * (byteAt b 0).toNat) b (.sitecellSet tag (takeRuns 184 (byteAt b 0).toNat (b.drop 1)))
  else if kind = 0x0408#16 then sized 0 b (.sitecellRead tag)
  else if kind = 0x0501#16 then
    sized 21 b (.clipDefine tag
      { clip := byteAt b 0, base := fieldBits 32 b 1, capacity := fieldBits 32 b 5, duration := fieldBits 24 b 9
        clock := fieldBits 40 b 12, period := fieldBits 32 b 17 })
  else if kind = 0x0502#16 then
    sized (6 + 185 * (byteAt b 5).toNat) b (.clipWrite tag (byteAt b 0) (fieldBits 32 b 1)
      ((takeRuns 185 (byteAt b 5).toNat (b.drop 6)).map readRecordBody))
  else if kind = 0x0503#16 then sized 1 b (.clipClose tag (byteAt b 0))
  else if kind = 0x0504#16 then sized 1 b (.clipDelete tag (byteAt b 0))
  else if kind = 0x0505#16 then sized 1 b (.clipRead tag (byteAt b 0))
  else if kind = 0x0506#16 then
    sized (2 + 3 * (byteAt b 1).toNat) b (.reelSet tag (byteAt b 0)
      ((takeRuns 3 (byteAt b 1).toNat (b.drop 2)).map readStepBody))
  else if kind = 0x0507#16 then sized 1 b (.reelRead tag (byteAt b 0))
  else if kind = 0x0601#16 then
    sized 24 b (.insertArm tag
      { record := byteAt b 0, service := byteAt b 1, trigger := byteAt b 2, cueId := fieldBits 32 b 3
        second := fieldBits 32 b 7, slot := fieldBits 24 b 11, reel := byteAt b 14, endRule := byteAt b 15
        length := fieldBits 24 b 16, limitPresent := byteAt b 19, limit := fieldBits 32 b 20 })
  else if kind = 0x0602#16 then sized 1 b (.insertCancel tag (byteAt b 0))
  else if kind = 0x0603#16 then sized 1 b (.insertReturn tag (byteAt b 0))
  else if kind = 0x0604#16 then sized 1 b (.insertClear tag (byteAt b 0))
  else if kind = 0x0605#16 then sized 1 b (.insertRead tag (byteAt b 0))
  else if kind = 0x0701#16 then sized 0 b (.noticeFetch tag)
  else if kind = 0x0702#16 then sized 0 b (.systemIdentify tag)
  else if kind = 0x0703#16 then sized 0 b (.statusRead tag)
  else if kind = 0x0704#16 then
    sized 4 b (.countsRead tag (byteAt b 0) (fieldBits 16 b 1) (byteAt b 3))
  else if kind = 0x0705#16 then sized 0 b (.systemRestart tag)
  else .unknown

end Sys2Proof.Machine
end

