-- ==== Sys2Proof/Machine/ControlLink.lean ====
section
/-! DEFINITION. The Control Link (10): transfers, the frame receiver, the taking of a request, replies, and the requests
NOTICE.FETCH, SYSTEM.IDENTIFY, STATUS.READ and COUNTS.READ. -/

namespace Sys2Proof.Machine

/-! ## Taking a frame (R183, R185, R186) -/

/-- What waits once a frame has been taken: the request, or the end of its handling when the Control Link refuses it. -/
def taken (kind tag : BitVec 16) : Reading → ReplyPhase
  | .unknown => .handled kind tag .unknown []
  | .format => .handled kind tag .format []
  | .request i => .taken i

/-- A frame that passes its CRC (R185): taken as a request while no reply is outstanding, else a busy discard. -/
def State.takeFrame (header body : Bytes) (s : State) : State :=
  if s.control.reply = .none then
    let kind := BitVec.ofNat 16 (fieldNat header 2 2)
    let tag := BitVec.ofNat 16 (fieldNat header 4 2)
    { s with control := { s.control with reply := taken kind tag (readRequest kind tag body) } }
  else s.discardBusy

/-- The CRC error discard (R183, R184). -/
def State.discardCrc (s : State) : State := s.discardFrame (fun d => { d with crc := bump d.crc })

/-- A complete frame checked (R183). -/
def State.checkFrame (header body crc : Bytes) (s : State) : State :=
  if (crc16 (header ++ body)).toNat = beNat crc then s.takeFrame header body else s.discardCrc

/-! ## The frame receiver (R181, R182) -/

/-- The receiver's state replaced. -/
def State.setReceiver (r : FrameReceiver) (s : State) : State := { s with control := { s.control with receiver := r } }

/-- A byte in HUNT (R181). -/
def huntByte (b : Byte) : FrameReceiver := if b = 0xB3#8 then .sync else .hunt

/-- The length a header carries. -/
def headerLength (header : Bytes) : Nat := fieldNat header 0 2

/-- The receiver once six header bytes are held (R182). -/
def afterHeader (header : Bytes) : FrameReceiver := if headerLength header = 0 then .crc header [] [] else .body header []

/-- A header byte (R182): the length is checked once both its bytes are held. -/
def State.headerByte (held : Bytes) (b : Byte) (s : State) : State :=
  let held := held ++ [b]
  if held.length = 2 ∧ 1600 < headerLength held then
    (s.setReceiver .discard).discardFrame (fun d => { d with length := bump d.length })
  else if held.length < 6 then s.setReceiver (.header held)
  else s.setReceiver (afterHeader held)

/-- One byte shifted in (R181, R182). -/
def State.receiveByte (b : Byte) (s : State) : State :=
  match s.control.receiver with
  | .hunt => s.setReceiver (huntByte b)
  | .sync =>
    if b = 0x5D#8 then s.setReceiver (.header [])
    else (s.setReceiver (huntByte b)).discardFrame (fun d => { d with sync := bump d.sync })
  | .header held => s.headerByte held b
  | .body header held =>
    let held := held ++ [b]
    if held.length < headerLength header then s.setReceiver (.body header held)
    else s.setReceiver (.crc header held [])
  | .crc header body [] => s.setReceiver (.crc header body [b])
  | .crc header body (c :: held) => (s.setReceiver .hunt).checkFrame header body (c :: held ++ [b])
  | .discard => s

/-! ## Shifting out (R180) -/

/-- One byte shifted out (R180): of the reply, which is read with its last byte; else 0x00. -/
def State.shiftOutByte (s : State) : State :=
  match s.control.shiftOut with
  | [] => { s with control := { s.control with dataOut := 0 } }
  | [b] => { s with control := { s.control with dataOut := b, shiftOut := [], reply := .none } }
  | b :: c :: rest => { s with control := { s.control with dataOut := b, shiftOut := c :: rest } }

/-- One byte each way, the byte shifted out taken first. -/
def State.byteOutFirst (b : Byte) (s : State) : State := s.shiftOutByte.receiveByte b

/-- One byte each way, the byte shifted in taken first. -/
def State.byteInFirst (b : Byte) (s : State) : State := (s.receiveByte b).shiftOutByte

/-- The next byte shifted out is the last of a reply. -/
def ControlLink.lastOutDue (c : ControlLink) : Bool := c.shiftOut.length == 1

/-- The next byte shifted in is the last of a frame. -/
def ControlLink.lastInDue (c : ControlLink) : Bool :=
  match c.receiver with
  | .crc _ _ (_ :: _) => true
  | _ => false

/-- The next byte `b` is a sync error (R181). -/
def ControlLink.syncErrorDue (c : ControlLink) (b : Byte) : Bool := decide (c.receiver = .sync) && decide (b ≠ 0x5D#8)

/-- The next byte `b` makes the length too great (R182). -/
def ControlLink.lengthErrorDue (c : ControlLink) (b : Byte) : Bool :=
  match c.receiver with
  | .header [a] => decide (1600 < headerLength [a, b])
  | _ => false

/-- A byte of a transfer (R180, R181). When it ends both a reply and a frame, either may be taken first (R185; log
entry 2). -/
def State.linkByte (b : Byte) (s : State) : State :=
  if s.control.lastOutDue && s.control.lastInDue then
    let counted : State := { s with freeCount := s.freeCount + 1 }
    if Config.freeChoice s.freeCount 0 % 2 = 0 then counted.byteOutFirst b else counted.byteInFirst b
  else s.byteOutFirst b

/-! ## Transfers (R180 to R182) -/

/-- The bytes a transfer that begins now shifts out (R180). -/
def ControlLink.frameReady (c : ControlLink) : Bytes :=
  match c.reply with
  | .ready frame => frame
  | _ => []

/-- A transfer begins (R180, R181). -/
def State.beginTransfer (s : State) : State :=
  { s with control := { s.control with selected := true, receiver := .hunt, shiftOut := s.control.frameReady } }

/-- The receiver is within a frame (R182). -/
def FrameReceiver.inFrame : FrameReceiver → Bool
  | .hunt => false
  | .sync => true
  | .header _ => true
  | .body _ _ => true
  | .crc _ _ _ => true
  | .discard => false

/-- A transfer ends (R180, R182): a frame it cuts is discarded. -/
def State.endTransfer (s : State) : State :=
  let ended : State := { s with control := { s.control with selected := false, receiver := .hunt, shiftOut := [] } }
  if s.control.receiver.inFrame then ended.discardFrame (fun d => { d with cut := bump d.cut }) else ended

/-! ## Replies (R187) -/

/-- A request's handling has ended, and its reply is made ready (R187). -/
def State.makeReady (s : State) : State :=
  match s.control.reply with
  | .handled kind tag code fields => s.readyReply kind tag code fields
  | .none => s
  | .taken _ => s
  | .ready _ => s

/-! ## NOTICE.FETCH, SYSTEM.IDENTIFY, STATUS.READ, COUNTS.READ (R191, R193, R194) -/

/-- NOTICE.FETCH (R191): up to 8 notices removed from the head of the queue, and both unknown-origin flags cleared. -/
def handleNoticeFetch (s : State) : State × Bytes :=
  let fetched := s.control.notices.take 8
  ({ s with
      control := { s.control with notices := s.control.notices.drop 8 }
      linkA := { s.linkA with unknownFlag := false }
      linkB := { s.linkB with unknownFlag := false } },
    encList 1 Notice.bytes fetched)

/-- SYSTEM.IDENTIFY (R193): vendor code, part number, revision and capacities. -/
def handleSystemIdentify (s : State) : Answer :=
  .ok s (beBytes 4 0x2C41 ++ beBytes 4 3120 ++ beBytes 1 1 ++
    [16, 512, 64, 256, 4194304, 32, 24, 16, 8, 1024, 8, 64, 1600].flatMap (beBytes 4))

/-- Insertion records in a state. -/
def State.recordsIn (st : RecordState) (s : State) : Nat := (s.insertions.keep (fun _ r => decide (r.state = st))).length

/-- A discard count's fields in the order of R184. -/
def DiscardCounts.fields (d : DiscardCounts) : Bytes :=
  beBytes 4 d.sync ++ beBytes 4 d.length ++ beBytes 4 d.cut ++ beBytes 4 d.crc ++ beBytes 4 d.busy

/-- STATUS.READ (R193). -/
def handleStatusRead (s : State) : State × Bytes :=
  (s, beBytes 1 s.time.stepState.code ++ beBytes 1 s.time.config.policy.code ++ encFlag s.time.epochKnown ++
    encOptNat 4 (if s.time.epochKnown then some s.time.second.toNat else none) ++ beBytes 3 s.assembler.slot ++
    encOptNat 3 s.slotNumber ++ encFirst s.linkA.up ++ encFirst s.linkB.up ++
    encFlag s.feedLive ++ encFirst s.site.output ++ encFlag s.output.permit ++
    beBytes 1 (16 - s.insertions.length) ++
    [RecordState.armed, .primed, .onLocal, .returning, .done].flatMap (fun st => beBytes 1 (s.recordsIn st)) ++
    beBytes 1 s.channels.length ++ beBytes 1 s.control.notices.length ++ encFlag s.control.noticesLost ++
    encFlag s.control.frameError ++ s.control.discards.fields)

/-- A link's ten counters in the order of R36. -/
def LinkCounts.fields (c : LinkCounts) : Bytes :=
  [c.cells, c.crcErrors, c.runts, c.overlong, c.badStamps, c.overruns, c.unknownOrigin, c.streamMisses,
    c.firstArrivals, c.secondArrivals].flatMap (beBytes 4)

/-- COUNTS.READ of a link (R194). -/
def readLinkCounts (l : Link) (clear : Bool) (s : State) : Answer :=
  .ok (if clear then s.setLink l { s.link l with counts := .zero } else s)
    (encFirst (s.link l).up ++ (s.link l).counts.fields)

/-- COUNTS.READ of a stream (R194); a stream that is not valid reads its counters as 0. -/
def readStreamCounts (k : Nat) (clear : Bool) (s : State) : Answer :=
  .ok (if clear then { s with streams := s.streams.update k (fun e => { e with counts := .zero }) } else s)
    (match s.streams.get k with
      | some e => encFlag true ++ e.counts.fields
      | none => encFlag false ++ StreamCounts.zero.fields)

/-- COUNTS.READ of a service (R194); a service that is not valid reads its counters as 0. -/
def readServiceCounts (k : Nat) (clear : Bool) (s : State) : Answer :=
  .ok (if clear then s.updateService k (fun e => { e with replaced := 0, localCells := 0, nulls := 0 }) else s)
    (match s.services.get k with
      | some e => encFlag true ++ beBytes 4 e.replaced ++ beBytes 4 e.localCells ++ beBytes 4 e.nulls
      | none => encFlag false ++ beBytes 4 0 ++ beBytes 4 0 ++ beBytes 4 0)

/-- COUNTS.READ (R194). -/
def handleCountsRead (scope : Byte) (index : Nat) (clear : Byte) (s : State) : Answer :=
  match readFlag clear with
  | none => .refuse .range
  | some c =>
    if scope = 0 ∧ index = 0 then readLinkCounts .a c s
    else if scope = 0 ∧ index = 1 then readLinkCounts .b c s
    else if scope = 1 ∧ index ≤ 511 then readStreamCounts index c s
    else if scope = 2 ∧ index ≤ 63 then readServiceCounts index c s
    else .refuse .range

/-! ## Meanings -/

/-- TRANSFER_START (R180): select is asserted; nothing while it stands asserted. -/
def execTransferStart (s : State) : Host.Outcome State Fault Refusal :=
  .next (if s.control.selected then s else s.beginTransfer)

/-- TRANSFER_END (R182): select is deasserted; nothing while no transfer runs. -/
def execTransferEnd (s : State) : Host.Outcome State Fault Refusal :=
  .next (if s.control.selected then s.endTransfer else s)

/-- CONTROL_LINK_BYTE (R181): a byte of a transfer, whatever it brings about; no byte is shifted between transfers. -/
def execControlLinkByte (byte : Byte) (s : State) : Host.Outcome State Fault Refusal :=
  .next (if s.control.selected then s.linkByte byte else s)

/-- SYNC_ERROR (R181): the byte that is one (log entry 4). -/
def execSyncError (byte : Byte) (s : State) : Host.Outcome State Fault Refusal :=
  .next (if s.control.selected && s.control.syncErrorDue byte then s.byteOutFirst byte else s)

/-- LENGTH_ERROR (R182): the byte that makes the length too great (log entry 4). -/
def execLengthError (byte : Byte) (s : State) : Host.Outcome State Fault Refusal :=
  .next (if s.control.selected && s.control.lengthErrorDue byte then s.byteOutFirst byte else s)

/-- COMPLETE_FRAME (R183): the byte that completes a frame, the frame taken before the byte shifted out (log entry 4). -/
def execCompleteFrame (byte : Byte) (s : State) : Host.Outcome State Fault Refusal :=
  .next (if s.control.selected && s.control.lastInDue then s.byteInFirst byte else s)

/-- REPLY_MADE_READY (R187). -/
def execReplyMadeReady (s : State) : Host.Outcome State Fault Refusal := .next s.makeReady

/-- REPLY_READ (R180): the byte with which a reply's last byte is shifted out, that one taken first (log entry 4). -/
def execReplyRead (byte : Byte) (s : State) : Host.Outcome State Fault Refusal :=
  .next (if s.control.selected && s.control.lastOutDue then s.byteOutFirst byte else s)

/-- NOTICE.FETCH (R191). -/
def execNoticeFetch (tag : BitVec 16) (s : State) : Host.Outcome State Fault Refusal :=
  .next (s.requestReady (.noticeFetch tag) 0x0701#16 tag handleNoticeFetch)

/-- SYSTEM.IDENTIFY (R193). -/
def execSystemIdentify (tag : BitVec 16) (s : State) : Host.Outcome State Fault Refusal :=
  .next (s.request (.systemIdentify tag) 0x0702#16 tag handleSystemIdentify)

/-- STATUS.READ (R193). -/
def execStatusRead (tag : BitVec 16) (s : State) : Host.Outcome State Fault Refusal :=
  .next (s.requestReady (.statusRead tag) 0x0703#16 tag handleStatusRead)

/-- COUNTS.READ (R194). -/
def execCountsRead (tag : BitVec 16) (scope : Byte) (index : BitVec 16) (clear : Byte) (s : State) :
    Host.Outcome State Fault Refusal :=
  .next (s.request (.countsRead tag scope index clear) 0x0704#16 tag (handleCountsRead scope index.toNat clear))

end Sys2Proof.Machine
end

