-- ==== Sys2Proof/Machine/System.lean ====
section
/-! DEFINITION. The two resets of the whole part: the power-on reset and SYSTEM.RESTART, block by block. -/

namespace Sys2Proof.Machine

/-! ## Power-on reset -/

/-- The power-on reset (R24 and the power-on rule of every block): the state after reset, with what is the model's own,
the queue and the count of free choices, as it stood (log entry 24). -/
def State.powerOn (s : State) : State := { State.reset with pending := s.pending, freeCount := s.freeCount }

/-! ## SYSTEM.RESTART (R195), block by block -/

/-- The Time Unit (R25). -/
def TimeUnit.restart (t : TimeUnit) : TimeUnit :=
  { t with
    epochKnown := false, pendingSet := none, stepState := .free, refEdge := false, interval := 0, refTimer := none
    refExpired := false, holdover := none, qualifyCount := 0, mismatchCount := 0, steerLimit := false
    intLimit := false, glitchCount := 0, longCount := 0, lostCount := 0, phaseCount := 0, lastC := none, lastE := none
    lastInterval := none }

/-- A stream's runtime part (R58, R73). -/
def StreamEntry.restart (e : StreamEntry) : StreamEntry := { e with merge := .fresh, counts := .zero }

/-- A service's runtime fields (R58, R179). -/
def ServiceEntry.restart (e : ServiceEntry) : ServiceEntry := .fresh e.number e.labels

/-- The Release Unit (R94). -/
def SiteConfig.restartRelease (c : SiteConfig) : ReleaseUnit :=
  { dn := c.dn0, dnSource := .configured, offset := c.offset, offsetSource := .configured, lastTiming := none }

/-- The Assembler (R118); the current slot has no slot number while the epoch is unknown (R95), and keeps its second in the
count of seconds, which runs on (R1). -/
def Assembler.restart (a : Assembler) : Assembler :=
  { a with slotNumber := none, armedSwap := none, pointer := 0, lastGranted := 7 }

/-- The Control Link (R197). -/
def ControlLink.restart (c : ControlLink) : ControlLink :=
  { c with notices := [], noticesLost := false, frameError := false, discards := .zero }

/-- The restart at every block (R195): R25, R38, R58, R73, R94, R118, R137, R166, R179, R197. -/
def State.restart (s : State) : State :=
  ({ s with
    time := s.time.restart
    linkA := .reset
    linkB := .reset
    streams := s.streams.mapAll StreamEntry.restart
    services := s.services.mapAll ServiceEntry.restart
    toRelease := []
    toTiming := []
    toCue := []
    release := s.site.restartRelease
    ring := []
    assembler := s.assembler.restart
    clips := s.clips.mapAll (fun e => { e with pins := 0 })
    reels := s.reels.mapAll (fun r => { r with uses := 0 })
    insertions := []
    channels := []
    control := s.control.restart
    secondDue := s.secondDue && s.heldNotices.isNone
    heldNotices := none } : State).dropPermit

/-! ## Meanings -/

/-- POWER_ON_RESET (R24). -/
def execPowerOnReset (s : State) : Host.Outcome State Fault Refusal := .next s.powerOn

/-- SYSTEM.RESTART (R195): its reply is made ready, then the restart follows. -/
def execSystemRestart (tag : BitVec 16) (s : State) : Host.Outcome State Fault Refusal :=
  .next (if s.mayHandle (.systemRestart tag) then (s.readyReply 0x0705#16 tag .ok []).restart else s.discardBusy)

end Sys2Proof.Machine
end

