-- ==== Sys2Proof/Machine/Idle.lean ====
section
/-! DEFINITION. What the part does of itself while no command waits (log entry 1): the oscillator's tick, the events that
have come about, and the part's own work that waits. Where the manual lets either of two be taken first, or gives no time
for the work, the choice is free (log entry 2). -/

namespace Sys2Proof.Machine

/-! ## One oscillator tick -/

/-- A running timer one tick on; `some 0` has run out. -/
def timerTick : Option Nat → Option Nat := Option.map (fun n => n - 1)

/-- The Time Unit's counters one tick on (R6, R8). -/
def TimeUnit.timersTick (t : TimeUnit) : TimeUnit :=
  { t with
    interval := if t.refEdge then min (t.interval + 1) Config.counterMax else t.interval
    refTimer := timerTick t.refTimer }

/-- The tick count one tick on (R1): at the end of the second a second boundary and slot 0 are due, and either may be taken
first (R198); at a multiple of P a slot boundary is due (R95). -/
def State.countTick (s : State) : State :=
  if Config.ticksPerSecond ≤ s.time.tick + 1 then { s with secondDue := true, slotDue := true }
  else
    { s with
      time := { s.time with tick := s.time.tick + 1 }
      slotDue := decide ((s.time.tick + 1) % s.site.period = 0) }

/-- One tick of the oscillator: every timer, the output byte and the tick count (R1, R6, R8, R33, R112, R161). -/
def State.tick (s : State) : State :=
  ({ s with
    time := s.time.timersTick
    linkA := { s.linkA with timer := timerTick s.linkA.timer }
    linkB := { s.linkB with timer := timerTick s.linkB.timer }
    insertions := s.insertions.mapAll (fun r => { r with timer := timerTick r.timer }) } : State).outputTick.countTick

/-! ## Events that have come about, and work that waits -/

/-- A command when a condition holds. -/
def onlyIf (b : Bool) (i : Instr) : List Instr := if b then [i] else []

/-- The events of site time and of the timers that have come about and are not yet taken. -/
def State.dueEvents (s : State) : List Instr :=
  onlyIf s.secondDue .secondBoundary ++ onlyIf s.slotDue .slotBoundary ++
    onlyIf (decide (s.time.refTimer = some 0)) .referenceLost ++
    onlyIf (decide (s.linkA.timer = some 0)) (.linkTimeout .a) ++
    onlyIf (decide (s.linkB.timer = some 0)) (.linkTimeout .b) ++
    (s.insertions.keep (fun _ r => decide (r.timer = some 0))).map (fun e => .returnLimitExpiry e.1)

/-- The request taken and not yet handled, or the reply not yet made ready. -/
def ReplyPhase.work : ReplyPhase → List Instr
  | .none => []
  | .taken i => [i]
  | .handled _ _ _ _ => [.replyMadeReady]
  | .ready _ => []

/-- The part's own work that waits: cells at the Classifier, the Release Unit and the Insertion Engine, and the
outstanding request. -/
def State.waiting (s : State) : List Instr :=
  onlyIf (!s.linkA.handOn.isEmpty) (.cellTake .a) ++ onlyIf (!s.linkB.handOn.isEmpty) (.cellTake .b) ++
    onlyIf (!s.toRelease.isEmpty) .releaseComputation ++ onlyIf (!s.toTiming.isEmpty) .timingCell ++
    onlyIf (!s.toCue.isEmpty) .cueTake ++ s.control.reply.work

/-! ## Free choices (log entry 2) -/

/-- A free part of a list, its order kept: item `i` is taken when its choice is even. -/
def freePart (count : Nat) : Nat → List Instr → List Instr
  | _, [] => []
  | i, x :: xs =>
    if Config.freeChoice count i % 2 = 0 then x :: freePart count (i + 1) xs else freePart count (i + 1) xs

/-- An item put at a free place of a list. -/
def freeInsert (count i : Nat) (x : Instr) : List Instr → List Instr
  | [] => [x]
  | y :: ys => (y :: ys).insertIdx (Config.freeChoice count i % (ys.length + 2)) x

/-- A list in a free order. -/
def freeOrder (count : Nat) : Nat → List Instr → List Instr
  | _, [] => []
  | i, x :: xs => freeInsert count i x (freeOrder count (i + 1) xs)

/-- Commands posted on an empty queue in a free order. -/
def State.post (cs : List Instr) (s : State) : State :=
  { s with pending := freeOrder s.freeCount 64 cs, freeCount := s.freeCount + 1 }

/-- What happens while no command waits: what has come about is taken, with a free part of the waiting work, in a free
order; when nothing has come about and none of the work is taken, one tick passes. -/
def State.idle (s : State) : State :=
  match s.dueEvents, s.waiting with
  | [], [] => s.tick
  | d :: ds, waiting => s.post (d :: ds ++ freePart s.freeCount 0 waiting)
  | [], w :: ws =>
    match freePart s.freeCount 0 (w :: ws) with
    | [] => ({ s with freeCount := s.freeCount + 1 } : State).tick
    | c :: cs => s.post (c :: cs)

end Sys2Proof.Machine
end

