-- ==== Sys2Proof/Machine/Dispatch.lean ====
section
/-! DEFINITION. One arm for each command: its meaning. -/

namespace Sys2Proof.Machine

/-- A command's effect on everything but the queue. -/
def exec (i : Instr) (s : State) : Host.Outcome State Fault Refusal :=
  match i with
  | .powerOnReset => Sys2Proof.Machine.execPowerOnReset s
  | .secondBoundary => Sys2Proof.Machine.execSecondBoundary s
  | .holdoverExpired => Sys2Proof.Machine.execHoldoverExpired s
  | .ppsEdge edge => Sys2Proof.Machine.execPpsEdge edge s
  | .referenceLost => Sys2Proof.Machine.execReferenceLost s
  | .cellArrival link byte => Sys2Proof.Machine.execCellArrival link byte s
  | .runt link byte => Sys2Proof.Machine.execRunt link byte s
  | .overlong link byte => Sys2Proof.Machine.execOverlong link byte s
  | .linkTimeout link => Sys2Proof.Machine.execLinkTimeout link s
  | .cellTake link => Sys2Proof.Machine.execCellTake link s
  | .releaseComputation => Sys2Proof.Machine.execReleaseComputation s
  | .timingCell => Sys2Proof.Machine.execTimingCell s
  | .cueTake => Sys2Proof.Machine.execCueTake s
  | .slotBoundary => Sys2Proof.Machine.execSlotBoundary s
  | .returnLimitExpiry record => Sys2Proof.Machine.execReturnLimitExpiry record s
  | .transferStart => Sys2Proof.Machine.execTransferStart s
  | .transferEnd => Sys2Proof.Machine.execTransferEnd s
  | .syncError byte => Sys2Proof.Machine.execSyncError byte s
  | .lengthError byte => Sys2Proof.Machine.execLengthError byte s
  | .completeFrame byte => Sys2Proof.Machine.execCompleteFrame byte s
  | .replyMadeReady => Sys2Proof.Machine.execReplyMadeReady s
  | .replyRead byte => Sys2Proof.Machine.execReplyRead byte s
  | .timeConfig tag body => Sys2Proof.Machine.execTimeConfig tag body s
  | .timeSet tag second => Sys2Proof.Machine.execTimeSet tag second s
  | .timeRead tag => Sys2Proof.Machine.execTimeRead tag s
  | .timeClear tag choice => Sys2Proof.Machine.execTimeClear tag choice s
  | .originSet tag index valid originId links => Sys2Proof.Machine.execOriginSet tag index valid originId links s
  | .originRead tag index => Sys2Proof.Machine.execOriginRead tag index s
  | .streamSet tag body => Sys2Proof.Machine.execStreamSet tag body s
  | .streamClear tag index => Sys2Proof.Machine.execStreamClear tag index s
  | .streamRead tag index => Sys2Proof.Machine.execStreamRead tag index s
  | .serviceSet tag body => Sys2Proof.Machine.execServiceSet tag body s
  | .serviceRead tag index => Sys2Proof.Machine.execServiceRead tag index s
  | .releaseRead tag => Sys2Proof.Machine.execReleaseRead tag s
  | .siteConfig tag body => Sys2Proof.Machine.execSiteConfig tag body s
  | .siteRead tag => Sys2Proof.Machine.execSiteRead tag s
  | .planWrite tag body => Sys2Proof.Machine.execPlanWrite tag body s
  | .planSwapRequest tag second => Sys2Proof.Machine.execPlanSwapRequest tag second s
  | .planCancel tag => Sys2Proof.Machine.execPlanCancel tag s
  | .planRead tag bank first count => Sys2Proof.Machine.execPlanRead tag bank first count s
  | .sitecellSet tag cells => Sys2Proof.Machine.execSitecellSet tag cells s
  | .sitecellRead tag => Sys2Proof.Machine.execSitecellRead tag s
  | .clipDefine tag body => Sys2Proof.Machine.execClipDefine tag body s
  | .clipWrite tag clip first records => Sys2Proof.Machine.execClipWrite tag clip first records s
  | .clipClose tag clip => Sys2Proof.Machine.execClipClose tag clip s
  | .clipDelete tag clip => Sys2Proof.Machine.execClipDelete tag clip s
  | .clipRead tag clip => Sys2Proof.Machine.execClipRead tag clip s
  | .reelSet tag reel steps => Sys2Proof.Machine.execReelSet tag reel steps s
  | .reelRead tag reel => Sys2Proof.Machine.execReelRead tag reel s
  | .insertArm tag body => Sys2Proof.Machine.execInsertArm tag body s
  | .insertCancel tag record => Sys2Proof.Machine.execInsertCancel tag record s
  | .insertReturn tag record => Sys2Proof.Machine.execInsertReturn tag record s
  | .insertClear tag record => Sys2Proof.Machine.execInsertClear tag record s
  | .insertRead tag record => Sys2Proof.Machine.execInsertRead tag record s
  | .noticeFetch tag => Sys2Proof.Machine.execNoticeFetch tag s
  | .systemIdentify tag => Sys2Proof.Machine.execSystemIdentify tag s
  | .statusRead tag => Sys2Proof.Machine.execStatusRead tag s
  | .countsRead tag scope index clear => Sys2Proof.Machine.execCountsRead tag scope index clear s
  | .systemRestart tag => Sys2Proof.Machine.execSystemRestart tag s
  | .linkByte link startOfCell byte => Sys2Proof.Machine.execLinkByte link startOfCell byte s
  | .controlLinkByte byte => Sys2Proof.Machine.execControlLinkByte byte s

end Sys2Proof.Machine
end

