-- ==== Sys2Proof/Machine/Step.lean ====
section
/-! DEFINITION. One step: the command at the front of the queue, or, on an empty queue, what the part does of itself. -/

namespace Sys2Proof.Machine

/-- One step (log entry 1 for the empty queue). -/
def step (s : State) : Host.Outcome State Fault Refusal :=
  match s.pending with
  | [] => .next s.idle
  | c :: rest => exec c { s with pending := rest }

/-- The state with the command that a word spells put at the front of the queue; no word spells one (log entry 25). -/
def State.withFetchWord (s : State) (nbits w : Nat) : State :=
  match decodeTableWord nbits w with
  | some c => { s with pending := c :: s.pending }
  | none => s

end Sys2Proof.Machine
end

