-- ==== Sys2Proof/Safety.lean ====
section
/-! DEFINITION. What counts as a sound state, in the terms the statements use: the laws of the manual that every step
keeps, and the ends of a request's handling. -/

namespace Sys2Proof.Machine

/-! ## Requests -/

/-- The request `i` can be handled now (R185): no reply is outstanding, or it is the request that has been taken. -/
def State.mayTake (i : Instr) (s : State) : Prop := s.control.reply = .none ∨ s.control.reply = .taken i

/-- The handling of a request has ended with OK and these fields (R187). -/
def State.okWaits (kind tag : BitVec 16) (fields : Bytes) (s : State) : State :=
  { s with control := { s.control with reply := .handled kind tag .ok fields } }

/-- The handling of a request has ended with a refusal (R186, R187). -/
def State.refusalWaits (kind tag : BitVec 16) (code : ResultCode) (s : State) : State :=
  { s with control := { s.control with reply := .handled kind tag code [] } }

/-- The notice queue with one notice more (R190). -/
def State.noticesWith (d : NoticeDetail) (s : State) : List Notice := s.control.notices ++ [s.time.noticeOf d]

/-- The length of a request's body, by its kind and the count it carries (R186, R201; 12, Request kinds; the widths that
R201 leaves to its reader are log entry 17); no kind of request has none. -/
def requestLength (kind : BitVec 16) (body : Bytes) : Option Nat :=
  let count (at_ width : Nat) : Nat := fieldNat body at_ width
  match kind.toNat with
  | 0x0101 => some 11 | 0x0102 => some 4 | 0x0103 => some 0 | 0x0104 => some 1
  | 0x0201 => some 7 | 0x0202 => some 1 | 0x0203 => some 7 | 0x0204 => some 2 | 0x0205 => some 2
  | 0x0206 => some (5 + 2 * count 4 1) | 0x0207 => some 1
  | 0x0301 => some 0
  | 0x0401 => some 27 | 0x0402 => some 0 | 0x0403 => some (8 + count 3 2) | 0x0404 => some 4 | 0x0405 => some 0
  | 0x0406 => some 5 | 0x0407 => some (1 + 184 * count 0 1) | 0x0408 => some 0
  | 0x0501 => some 21 | 0x0502 => some (6 + 185 * count 5 1) | 0x0503 => some 1 | 0x0504 => some 1 | 0x0505 => some 1
  | 0x0506 => some (2 + 3 * count 1 1) | 0x0507 => some 1
  | 0x0601 => some 24 | 0x0602 => some 1 | 0x0603 => some 1 | 0x0604 => some 1 | 0x0605 => some 1
  | 0x0701 => some 0 | 0x0702 => some 0 | 0x0703 => some 0 | 0x0704 => some 4 | 0x0705 => some 0
  | _ => none

/-! ## Reels (R129, R130) -/

/-- The LOOP steps of a list; each opens a group. -/
def loopSteps (steps : List ReelStep) : Nat :=
  steps.countP (fun x => match x with
    | .loop _ => true
    | _ => false)

/-- The NEXT steps of a list; each closes the innermost group still open. -/
def nextSteps (steps : List ReelStep) : Nat := steps.countP (fun x => decide (x = .next))

/-- No NEXT finds all groups already closed, and no group is still open at the end (R129). -/
def reelBalanced (steps : List ReelStep) : Prop :=
  (∀ n, nextSteps (steps.take n) ≤ loopSteps (steps.take n)) ∧ loopSteps steps = nextSteps steps

/-- The depth of step `i`: the LOOP steps before it, counted with the step itself, less the NEXT steps before it (R129). -/
def stepDepth (steps : List ReelStep) (i : Nat) : Nat := loopSteps (steps.take (i + 1)) - nextSteps (steps.take i)

/-- The steps strictly between step `i` and step `j`. -/
def stepsBetween (steps : List ReelStep) (i j : Nat) : List ReelStep := (steps.take j).drop (i + 1)

/-- Step `j` is the closing step of the LOOP at step `i`: the NEXT after a body that is itself balanced (R129). -/
def closesGroup (steps : List ReelStep) (i j : Nat) : Prop :=
  i < j ∧ (∃ count, steps[i]? = some (.loop count)) ∧ steps[j]? = some .next ∧ reelBalanced (stepsBetween steps i j)

/-- Every LOOP body holds a PLAY or HOLD step, directly or within a nested group (R130). -/
def bodiesHold (steps : List ReelStep) : Prop :=
  ∀ i j, closesGroup steps i j → ∃ x ∈ stepsBetween steps i j, x = .hold ∨ ∃ clip, x = .play clip

/-- Every reel that is listed holds steps that REEL.SET accepts (R130). -/
def State.reelsSound (s : State) : Prop :=
  ∀ p ∈ s.reels, p.2.steps ≠ [] ∧ p.2.steps.length ≤ 24 ∧ reelBalanced p.2.steps ∧
    (∀ i, stepDepth p.2.steps i ≤ 4) ∧ bodiesHold p.2.steps

/-! ## Insertions -/

/-- What an active record of a reel releases as it enters DONE (R133): the use count of the reel falls by one, and so does
the pin count of each clip that a PLAY step of the reel names. -/
def State.releases (s : State) (reel : Nat) (t : State) : Prop :=
  (∀ k, t.reels.get k = (s.reels.get k).map (fun x => if k = reel then { x with uses := x.uses - 1 } else x)) ∧
    ∀ k, t.clips.get k = (s.clips.get k).map (fun e =>
      if .play k ∈ s.reelSteps reel then { e with pins := e.pins - 1 } else e)

/-! ## Laws every step keeps -/

/-- Every table, both plan banks and the clip area of cell memory stand in canonical form. -/
def State.canonical (s : State) : Bool :=
  s.origins.wf && s.streams.wf && s.services.wf && s.ring.wf && s.clips.wf && s.clipCells.wf && s.reels.wf &&
    s.insertions.wf && s.channels.wf && s.assembler.bank0.entries.wf && s.assembler.bank1.entries.wf

/-- Every valid ring entry holds a slot tag congruent to its position modulo 65,536 (R85). -/
def State.ringTagged (s : State) : Prop := ∀ p ∈ s.ring, p.2.tag % 65536 = p.1

/-- The permit line is asserted only while the permit condition holds (R20). -/
def State.permitSound (s : State) : Prop := s.output.permit = true → s.permitCondition = true

/-- The notice queue holds at most 64 notices and each hand-on queue at most 4 cells (R190, R32). -/
def State.queuesBounded (s : State) : Prop :=
  s.control.notices.length ≤ 64 ∧ s.linkA.handOn.length ≤ 4 ∧ s.linkB.handOn.length ≤ 4

/-- The steering word and the loop integrator lie in their ranges (R9). -/
def State.loopInRange (s : State) : Prop :=
  -524288 ≤ s.time.steering ∧ s.time.steering ≤ 524287 ∧
    -134217727 ≤ s.time.integrator ∧ s.time.integrator ≤ 134217727

/-- The tick count lies within the second, P is one of the eleven slot periods (00, Ticks, seconds and stamps; 00,
Slots), and notices are held back only for a second boundary that is still due (log entry 32). -/
def State.siteTimeSound (s : State) : Prop :=
  s.time.tick < 10000000 ∧ s.site.period ∈ Config.slotPeriods ∧ (s.heldNotices.isSome = true → s.secondDue = true)

/-- Every cell on its way to a slot is whole (00, Cells; 12, section 12.2): fewer than 200 bytes of a distribution cell in
progress, 184 bytes of each cell handed on, in the ring and in the carousel, and 180 bytes of each payload in cell
memory. -/
def State.cellsWhole (s : State) : Prop :=
  (∀ l taken, (s.link l).delineation = .assembling taken → taken.length < 200) ∧
    (∀ l, ∀ c ∈ (s.link l).handOn, c.cell.length = 184) ∧ (∀ h ∈ s.toRelease, h.item.cell.length = 184) ∧
    (∀ p ∈ s.ring, p.2.cell.length = 184) ∧ (∀ c ∈ s.assembler.carousel, c.length = 184) ∧
    ∀ p ∈ s.clipCells, p.2.payload.length = 180

/-- The splice state that a record which holds its service gives it (R140). -/
def RecordState.spliceGiven : RecordState → SpliceState
  | .primed => .primed
  | .onLocal => .onLocal
  | .returning => .returning
  | .armed => .network
  | .done => .network

/-- A service's active insertion; an invalid service has none (R47). -/
def State.activeOf (s : State) (service : Nat) : Option Nat := (s.services.get service).bind ServiceEntry.active

/-- No record holds the service (R140). -/
def State.unheld (s : State) (service : Nat) : Prop :=
  ∀ j r, s.insertions.get j = some r → r.holds = true → r.service ≠ service

/-- The law of R140 with what keeps it: a record that is neither IDLE nor DONE names a valid service; a record that holds
its service gives it its splice state and is its active insertion; a service that no record holds is in NETWORK with no
active insertion. -/
def State.insertionSound (s : State) : Prop :=
  (∀ j r, s.insertions.get j = some r → r.state ≠ .done → (s.services.get r.service).isSome = true) ∧
    (∀ j r, s.insertions.get j = some r → r.holds = true →
      s.spliceOf r.service = r.state.spliceGiven ∧ s.activeOf r.service = some j) ∧
    ∀ k, s.unheld k → s.spliceOf k = .network ∧ s.activeOf k = none

end Sys2Proof.Machine
end

