-- ==== Sys2Proof/Certificates/Slice0/Obligations.lean ====
section
/-! DEFINITION. The statements for the provers: one `def Obligations.<Name> : Prop` each. -/

open Sys2Proof Sys2Proof.Machine

/-! ## The queue and the step -/

/-- A step on a queue that is not empty is the front command's effect on the state with the rest of the queue. -/
def Obligations.StepFrontOfQueue : Prop :=
  ∀ c rest (s : State), s.pending = c :: rest → step s = exec c { s with pending := rest }

/-- Every step answers a next state, and no command touches the queue behind it. -/
def Obligations.EveryStepGoesOn : Prop :=
  (∀ (s : State), ∃ (t : State), step s = .next t) ∧ ∀ c (s : State), ∃ (t : State), exec c s = .next t ∧ t.pending = s.pending

/-! ## Reset -/

/-- The Insertion Engine at power-on reset (R165). -/
def Obligations.ResetInsertionEngine : Prop :=
  State.reset.insertions = [] ∧ State.reset.channels = [] ∧
    (∀ k, State.reset.spliceOf k = .network ∧ State.reset.activeOf k = none) ∧
    (∀ k, State.reset.reelUses k = 0) ∧ ∀ k, State.reset.pins k = 0

/-- What the reset rules of the other blocks give (R24, R37, R57, R72, R93, R117, R136, R196). The fields whose reset
value is the model's choice (log entries 10, 14, 15, 16, 2) are left out. -/
def Obligations.ResetState : Prop :=
  let s := State.reset
  (s.time.tick = 0 ∧ s.time.second = 0 ∧ s.time.epochKnown = false ∧ s.time.pendingSet = none ∧
    s.time.stepState = .free ∧ s.time.refEdge = false ∧ s.time.refTimer = none ∧ s.time.holdover = none ∧
    s.time.qualifyCount = 0 ∧ s.time.mismatchCount = 0 ∧ s.time.integrator = 0 ∧ s.time.steering = 0 ∧
    s.time.sentWord = 0 ∧ s.time.steerLimit = false ∧ s.time.intLimit = false ∧ s.time.glitchCount = 0 ∧
    s.time.longCount = 0 ∧ s.time.lostCount = 0 ∧ s.time.phaseCount = 0 ∧ s.time.lastC = none ∧
    s.time.lastE = none ∧ s.time.lastInterval = none ∧
    s.time.config = { sourceEnabled := true, polarity := .rising, kp := 32, ki := 2, window := 10, qualify := 10
                      holdoverLimit := 3600, policy := .lockstep }) ∧
  (∀ l, (s.link l).delineation = .hunt ∧ (s.link l).handOn = [] ∧ (s.link l).up = false ∧ (s.link l).timer = none ∧
    (s.link l).counts = .zero ∧ (s.link l).unknownFlag = false) ∧
  (s.origins = [] ∧ s.streams = [] ∧ s.services = []) ∧
  (s.ring = [] ∧ s.release = { dn := 1000000, dnSource := .configured, offset := 0, offsetSource := .configured
                               lastTiming := none } ∧ s.site.holdLimit = 10000000) ∧
  (s.assembler.bank0 = { length := 1, entries := [] } ∧ s.assembler.bank1 = { length := 1, entries := [] } ∧
    s.assembler.activeOne = false ∧ s.assembler.armedSwap = none ∧ s.assembler.carousel = [] ∧
    s.assembler.pointer = 0 ∧ s.assembler.lastGranted = 7 ∧
    s.site = { siteId := 0, zone := 0, period := 625, offset := 0, latency := 0, dn0 := 1000000, holdMax := 10000000
               output := false, mute := true, linkTimeout := 100 } ∧
    s.output.data = 0 ∧ s.output.valid = false ∧ s.output.strobe = false ∧ s.output.mark = false ∧
    s.output.permit = false) ∧
  (s.clips = [] ∧ s.reels = []) ∧
  (s.control.receiver = .hunt ∧ s.control.reply = .none ∧ s.control.notices = [] ∧ s.control.noticesLost = false ∧
    s.control.frameError = false ∧ s.control.discards = .zero ∧ s.control.shiftOut = [] ∧ s.attention = false)

/-- POWER_ON_RESET: the state after reset; the queue and the count of free choices, which are the model's own, stay (log
entry 24).
SYSTEM.RESTART: its reply is ready with OK, formed before the restart, and every block restarts by its rule (R25, R38,
R58, R73, R94, R118, R137, R166, R179, R195, R197); that the interval counter is 0 without a reference edge is the model's
choice (log entry 10). -/
def Obligations.ResetAndRestart : Prop :=
  (∀ (s : State), exec .powerOnReset s = .next { State.reset with pending := s.pending, freeCount := s.freeCount }) ∧
  ∀ tag (s : State), s.mayTake (.systemRestart tag) →
    ∃ (t : State), exec (.systemRestart tag) s = .next t ∧
      t.control.reply = .ready (frameOf 0x8705#16 tag ([0] ++ s.summary)) ∧
      t.control.notices = [] ∧ t.control.noticesLost = false ∧ t.control.frameError = false ∧
      t.control.discards = .zero ∧ t.control.receiver = s.control.receiver ∧ t.attention = true ∧
      t.time = { s.time with
        epochKnown := false, pendingSet := none, stepState := .free, refEdge := false, interval := 0, refTimer := none
        refExpired := false, holdover := none, qualifyCount := 0, mismatchCount := 0, steerLimit := false
        intLimit := false, glitchCount := 0, longCount := 0, lostCount := 0, phaseCount := 0, lastC := none
        lastE := none, lastInterval := none } ∧
      t.linkA = .reset ∧ t.linkB = .reset ∧ t.origins = s.origins ∧
      (∀ k, t.streams.get k = (s.streams.get k).map (fun e => { e with merge := .fresh, counts := .zero })) ∧
      (∀ k, t.services.get k = (s.services.get k).map (fun e => .fresh e.number e.labels)) ∧
      t.ring = [] ∧
      t.release = { dn := s.site.dn0, dnSource := .configured, offset := s.site.offset, offsetSource := .configured
                    lastTiming := none } ∧
      t.site = s.site ∧ t.assembler.bank0 = s.assembler.bank0 ∧ t.assembler.bank1 = s.assembler.bank1 ∧
      t.assembler.activeOne = s.assembler.activeOne ∧ t.assembler.carousel = s.assembler.carousel ∧
      t.assembler.pointer = 0 ∧ t.assembler.lastGranted = 7 ∧ t.assembler.armedSwap = none ∧
      (∀ k, t.clips.get k = (s.clips.get k).map (fun e => { e with pins := 0 })) ∧ t.clipCells = s.clipCells ∧
      (∀ k, t.reels.get k = (s.reels.get k).map (fun r => { r with uses := 0 })) ∧
      t.insertions = [] ∧ t.channels = [] ∧ t.output.rest = s.output.rest ∧ t.output.data = s.output.data ∧
      t.output.permit = (s.output.permit && s.site.output && !s.site.mute && decide (s.time.config.policy = .solo))

/-! ## Site time (01) -/

/-- A pending TIME.SET at a second boundary (R4): the second takes S, the epoch is known, the mismatch count is 0 and the
pending value is cleared. When it changes a known epoch, an epoch move (R5): every anchor is invalid, INSTEP becomes
ACQUIRE and HOLDOVER becomes FREE without its countdown, both with the qualify count 0, and the STEP notice follows the
EPOCH notice; FREE and ACQUIRE stay. When it does not, the step state stays and a holdover countdown above 1 falls by one,
or ends the holdover at 1 (R17); the EPOCH notice is raised all the same, without a previous second where the epoch was
unknown (R4), and the STEP notice of an ending holdover follows it (R2).
The current position (R139) of the slot taken before the boundary: a known one stays (R96); where the epoch was unknown, a
slot of the second that has ended lies in the second before S, site time being continuous (R4; that a slot taken with the
epoch unknown has this position is the model's reading, log entry 27, DEDUCED). -/
def Obligations.TimeSetTakesEffect : Prop :=
  ∀ (s : State) S, s.secondDue = true → s.heldNotices = none → s.time.pendingSet = some S →
    let stamp : Option (Nat × Epoch) := some (S.toNat % 64 * 10000000, S)
    ∃ (t : State), exec .secondBoundary s = .next t ∧ t.time.tick = 0 ∧ t.time.second = S ∧ t.time.epochKnown = true ∧
      t.time.mismatchCount = 0 ∧ t.time.pendingSet = none ∧ t.time.integrator = s.time.integrator ∧
      t.time.steering = s.time.steering ∧ t.ring = s.ring ∧ t.site = s.site ∧
      (s.time.epochKnown = true → t.currentPos = s.currentPos) ∧
      (s.time.epochKnown = false → s.assembler.slotSecond = s.time.second →
        t.currentPos = some { second := S - 1, slot := s.assembler.slot }) ∧
      (s.time.epochKnown = true → S ≠ s.time.second + 1 →
        ∀ k e, t.services.get k = some e → e.anchor = none) ∧
      (s.time.epochKnown = false ∨ S = s.time.second + 1 → t.services = s.services) ∧
      (s.time.epochKnown = true → S ≠ s.time.second + 1 →
        (s.time.stepState = .instep → t.time.stepState = .acquire ∧ t.time.qualifyCount = 0) ∧
        (s.time.stepState = .holdover →
          t.time.stepState = .free ∧ t.time.qualifyCount = 0 ∧ t.time.holdover = none) ∧
        (s.time.stepState = .free ∨ s.time.stepState = .acquire →
          t.time.stepState = s.time.stepState ∧ t.time.qualifyCount = s.time.qualifyCount) ∧
        (s.assembler.armedSwap = none → s.control.notices.length < 63 →
          t.control.notices = s.control.notices ++
            [{ detail := .epoch .set (some (s.time.second + 1)) S, created := stamp }] ++
            (match s.time.stepState with
              | .instep => [{ detail := .step .instep .acquire .epochMoved 0, created := stamp }]
              | .holdover => [{ detail := .step .holdover .free .epochMoved 0, created := stamp }]
              | .free => []
              | .acquire => []))) ∧
      (s.time.epochKnown = false ∨ S = s.time.second + 1 →
        (s.time.stepState ≠ .holdover →
          t.time.stepState = s.time.stepState ∧ t.time.qualifyCount = s.time.qualifyCount) ∧
        (∀ left, s.time.stepState = .holdover → s.time.holdover = some left → 1 < left →
          t.time.stepState = .holdover ∧ t.time.holdover = some (left - 1)) ∧
        (s.time.stepState = .holdover → s.time.holdover = some 1 →
          t.time.stepState = .free ∧ t.time.qualifyCount = 0 ∧ t.time.holdover = none) ∧
        (s.assembler.armedSwap = none → s.control.notices.length < 63 →
          let epoch : Notice :=
            { detail := .epoch .set (if s.time.epochKnown then some (s.time.second + 1) else none) S, created := stamp }
          (s.time.stepState ≠ .holdover ∨ (∃ left, s.time.holdover = some left ∧ 1 < left) →
            t.control.notices = s.control.notices ++ [epoch]) ∧
          (s.time.stepState = .holdover → s.time.holdover = some 1 →
            t.control.notices = s.control.notices ++
              [epoch, { detail := .step .holdover .free .holdoverExpired 0, created := stamp }])))

/-- A second boundary with no pending TIME.SET and no armed swap (R1, R2, R17): the tick count returns to 0, the second
number advances by one, slot 0 is due, and a holdover countdown above 1 falls by one; nothing else changes (the count of
boundaries is the model's own, log entry 15).
The second boundary at which the holdover countdown reaches 0 (R17): the step state becomes FREE, the qualify count 0,
and a STEP notice with cause HOLDOVER_EXPIRED is raised; the permit stays only under SOLO. That HOLDOVER_EXPIRED is that
boundary, with the tick count 0 and the second number one on, is the model's reading (log entry 5, DEDUCED).
A second boundary whose slot 0 was taken before it (R198; log entry 32): its notices join the queue. -/
def Obligations.SecondBoundary : Prop :=
  (∀ (s : State), s.secondDue = true → s.heldNotices = none → s.time.pendingSet = none → s.assembler.armedSwap = none →
     (s.time.stepState ≠ .holdover → exec .secondBoundary s = .next { s with
       time := { s.time with tick := 0, second := s.time.second + 1, boundaries := s.time.boundaries + 1 }
       secondDue := false
       slotDue := true }) ∧
     ∀ left, s.time.stepState = .holdover → s.time.holdover = some left → 1 < left →
       exec .secondBoundary s = .next { s with
         time := { s.time with
           tick := 0, second := s.time.second + 1, boundaries := s.time.boundaries + 1, holdover := some (left - 1) }
         secondDue := false
         slotDue := true }) ∧
  (∀ (s : State) held, s.secondDue = true → s.heldNotices = some held →
    s.control.notices.length + held.length ≤ 64 →
    exec .secondBoundary s = .next { s with
      secondDue := false
      heldNotices := none
      control := { s.control with notices := s.control.notices ++ held } }) ∧
  ∀ (s : State), s.secondDue = true → s.heldNotices = none → s.time.stepState = .holdover → s.time.holdover = some 1 →
    s.time.pendingSet = none → s.assembler.armedSwap = none → s.control.notices.length < 64 →
    ∃ (t : State), exec .holdoverExpired s = .next t ∧ exec .secondBoundary s = .next t ∧
      t.time = { s.time with
        tick := 0, second := s.time.second + 1, boundaries := s.time.boundaries + 1, stepState := .free
        qualifyCount := 0, holdover := none } ∧
      t.control = { s.control with notices := t.control.notices } ∧
      (∃ n, t.control.notices = s.control.notices ++ [n] ∧ n.detail = .step .holdover .free .holdoverExpired 0) ∧
      t.output.permit = (s.output.permit && s.site.output && !(s.site.mute && !s.feedLive) &&
        decide (s.time.config.policy = .solo)) ∧
      t.services = s.services ∧ t.ring = s.ring ∧ t.insertions = s.insertions ∧ t.slotDue = true

/-- The first captured edge (R6, R7): it becomes the reference edge and arms the reference timer of R8; c and e are
recorded and the interval is absent.
A glitch counts and changes nothing else; a long edge becomes the reference edge and counts, and sets the qualify count
to 0 in ACQUIRE alone (R7); an edge of the other polarity, or with the source disabled, has no effect (R6). -/
def Obligations.EdgesNotQualified : Prop :=
  (∀ edge (s : State), s.time.config.sourceEnabled = true → edge = s.time.config.polarity → s.time.refEdge = false →
     exec (.ppsEdge edge) s = .next { s with time := { s.time with
       refEdge := true, interval := 0, refTimer := some 15000000, refExpired := false, lastC := some s.time.tick
       lastE := some (if s.time.tick < 5000000 then (s.time.tick : Int) else (s.time.tick : Int) - 10000000)
       lastInterval := none } }) ∧
  (∀ edge (s : State), s.time.config.sourceEnabled = true → edge = s.time.config.polarity → s.time.refEdge = true →
    s.time.interval < 9999000 →
    exec (.ppsEdge edge) s = .next { s with time := { s.time with
      glitchCount := min (s.time.glitchCount + 1) 4294967295 } }) ∧
  (∀ edge (s : State), s.time.config.sourceEnabled = true → edge = s.time.config.polarity → s.time.refEdge = true →
    10001000 < s.time.interval →
    exec (.ppsEdge edge) s = .next { s with time := { s.time with
      refEdge := true, interval := 0, refTimer := some 15000000, refExpired := false, lastC := some s.time.tick
      lastE := some (if s.time.tick < 5000000 then (s.time.tick : Int) else (s.time.tick : Int) - 10000000)
      lastInterval := some s.time.interval
      longCount := min (s.time.longCount + 1) 4294967295
      qualifyCount := if s.time.stepState = .acquire then 0 else s.time.qualifyCount } }) ∧
  ∀ edge (s : State), s.time.config.sourceEnabled = false ∨ edge ≠ s.time.config.polarity → exec (.ppsEdge edge) s = .next s

/-- A qualified edge with |e| at most 1,000 in each step state (R9, R13 to R15): the integrator and the steering word by
R9, the word sent; FREE enters ACQUIRE first, HOLDOVER resumes INSTEP; the qualify count by the window, and ACQUIRE becomes
INSTEP once it reaches the limit with the epoch known; site time stays. The edge becomes the reference edge: the interval
counter restarts, the reference timer is armed, and c, e and the interval are recorded (R7, R8).
Each limit flag is set where its clamp is applied and stays set (R10). The notices join in the order of the steps (R13 to
R15, R23): STEP with cause QUALIFIED or RESUMED for the state left, INT_LIMIT and STEER_LIMIT where the update sets the
flag, WANDER in INSTEP with |e| above the window, and STEP with cause QUALIFIED for ACQUIRE to INSTEP. -/
def Obligations.LoopUpdate : Prop :=
  ∀ edge (s : State) (e : Int), s.time.config.sourceEnabled = true → edge = s.time.config.polarity →
    s.time.refEdge = true → 9999000 ≤ s.time.interval → s.time.interval ≤ 10001000 →
    e = (if s.time.tick < 5000000 then (s.time.tick : Int) else (s.time.tick : Int) - 10000000) → e.natAbs ≤ 1000 →
    ∃ (t : State) (q : Int), exec (.ppsEdge edge) s = .next t ∧
      t.time.integrator = max (-134217727) (min 134217727 (s.time.integrator + s.time.config.ki * e)) ∧
      2 * (256 * q - (s.time.config.kp * e + t.time.integrator)).natAbs ≤ 256 ∧
      (2 * (256 * q - (s.time.config.kp * e + t.time.integrator)).natAbs = 256 → q % 2 = 0) ∧
      t.time.steering = max (-524288) (min 524287 q) ∧ t.time.sentWord = t.time.steering ∧
      t.time.sentCount = s.time.sentCount + 1 ∧ t.time.tick = s.time.tick ∧ t.time.second = s.time.second ∧
      t.time.refEdge = true ∧ t.time.interval = 0 ∧ t.time.refTimer = some 15000000 ∧ t.time.refExpired = false ∧
      t.time.lastC = some s.time.tick ∧ t.time.lastE = some e ∧ t.time.lastInterval = some s.time.interval ∧
      t.time.qualifyCount = (if e.natAbs ≤ s.time.config.window then
        min ((if s.time.stepState = .free then 0 else s.time.qualifyCount) + 1) 255 else 0) ∧
      (s.time.stepState = .instep ∨ s.time.stepState = .holdover → t.time.stepState = .instep) ∧
      (s.time.stepState = .free ∨ s.time.stepState = .acquire →
        t.time.stepState = (if s.time.config.qualify ≤ t.time.qualifyCount ∧ s.time.epochKnown = true then .instep
          else .acquire)) ∧
      t.time.holdover = (if s.time.stepState = .holdover then none else s.time.holdover) ∧
      t.services = s.services ∧ t.ring = s.ring ∧ t.insertions = s.insertions ∧ t.site = s.site ∧
      (let raw := s.time.integrator + s.time.config.ki * e
       let inStep : Prop := s.time.stepState = .instep ∨ s.time.stepState = .holdover
       t.time.intLimit = (s.time.intLimit || decide (t.time.integrator ≠ raw)) ∧
         t.time.steerLimit = (s.time.steerLimit || decide (t.time.steering ≠ q)) ∧
         (s.heldNotices = none → s.control.notices.length < 61 → ∃ left int steer wander entered : List Notice,
           t.control = { s.control with notices :=
             s.control.notices ++ left ++ int ++ steer ++ wander ++ entered } ∧
           (s.time.stepState = .free → left = [s.time.noticeOf (.step .free .acquire .qualified 0)]) ∧
           (s.time.stepState = .holdover → left = [s.time.noticeOf (.step .holdover .instep .resumed 0)]) ∧
           (s.time.stepState = .acquire ∨ s.time.stepState = .instep → left = []) ∧
           (s.time.intLimit = false → t.time.integrator ≠ raw →
             int = [s.time.noticeOf (.intLimit e raw t.time.integrator)]) ∧
           (s.time.intLimit = true ∨ t.time.integrator = raw → int = []) ∧
           (s.time.steerLimit = false → t.time.steering ≠ q →
             steer = [s.time.noticeOf (.steerLimit e q t.time.steering)]) ∧
           (s.time.steerLimit = true ∨ t.time.steering = q → steer = []) ∧
           (inStep → s.time.config.window < e.natAbs → wander = [s.time.noticeOf (.wander e)]) ∧
           (¬inStep ∨ e.natAbs ≤ s.time.config.window → wander = []) ∧
           (¬inStep → t.time.stepState = .instep →
             entered = [s.time.noticeOf (.step .acquire .instep .qualified 0)]) ∧
           (inStep ∨ t.time.stepState = .acquire → entered = [])))

/-- A phase step (R12) at a qualified edge with |e| above 1,000, in each step state: the tick count is 0; the second number
advances only for a negative e, where a pending TIME.SET takes its place (R4); the loop is not touched; the step is
counted and the step state is ACQUIRE; every anchor is invalid; slot 0 is due; with a positive e the ring stands as it was
(R89). With a negative e the slots from the edge's tick count, rounded up to a slot, to the end of the second are skipped
(R88): their ring entries are empty, the others stand, and each cell found is one late cell of the stream it carries
(R45). The edge becomes the reference edge and is recorded as any qualified edge (R7, R8).
The notices (R23): FREE raises STEP to ACQUIRE with cause QUALIFIED first; then one STEP with cause PHASE_STEP and e; those
of the boundary that a negative e makes follow. That the STEP notice has the stamp of the capture and stands before the
boundary's is the model's choice (log entry 11). -/
def Obligations.PhaseStep : Prop :=
  ∀ edge (s : State) (e : Int), s.time.config.sourceEnabled = true → edge = s.time.config.polarity →
    s.time.refEdge = true → 9999000 ≤ s.time.interval → s.time.interval ≤ 10001000 →
    e = (if s.time.tick < 5000000 then (s.time.tick : Int) else (s.time.tick : Int) - 10000000) → 1000 < e.natAbs →
    ∃ (t : State), exec (.ppsEdge edge) s = .next t ∧ t.time.tick = 0 ∧
      t.time.second = (if e < 0 then s.time.pendingSet.getD (s.time.second + 1) else s.time.second) ∧
      t.time.pendingSet = (if e < 0 then none else s.time.pendingSet) ∧
      t.time.integrator = s.time.integrator ∧ t.time.steering = s.time.steering ∧
      t.time.sentCount = s.time.sentCount ∧ t.time.qualifyCount = 0 ∧ t.time.holdover = none ∧
      t.time.phaseCount = min (s.time.phaseCount + 1) 4294967295 ∧ t.time.stepState = .acquire ∧
      t.time.refEdge = true ∧ t.time.interval = 0 ∧ t.time.refTimer = some 15000000 ∧ t.time.refExpired = false ∧
      t.time.lastC = some s.time.tick ∧ t.time.lastE = some e ∧ t.time.lastInterval = some s.time.interval ∧
      (∀ k x, t.services.get k = some x → x.anchor = none) ∧ t.slotDue = true ∧
      (0 < e → t.ring = s.ring ∧ t.streams = s.streams ∧ t.assembler = s.assembler) ∧
      (e < 0 → s.time.epochKnown = false → t.ring = s.ring ∧ t.streams = s.streams) ∧
      (e < 0 → s.time.epochKnown = true → s.ringTagged →
        let slots := 10000000 / s.site.period
        let skipped (i : Nat) : Bool := (List.range slots).any (fun j =>
          decide ((s.time.tick + s.site.period - 1) / s.site.period ≤ j) &&
            decide ((s.time.second.toNat % 64 * slots + j) % 65536 = i))
        (∀ i, t.ring.get i = if skipped i then none else s.ring.get i) ∧
          ∀ k, t.streams.get k = (s.streams.get k).map (fun x =>
            let found := s.ring.countP (fun p => skipped p.1 && decide (p.2.stream = k) && decide (p.2.origin = x.origin) &&
              decide (cellLabel p.2.cell = x.label) && decide (p.2.cls = x.cls))
            { x with counts := { x.counts with
              late := if found = 0 then x.counts.late else min (x.counts.late + found) 4294967295 } })) ∧
      t.insertions = s.insertions ∧ t.channels = s.channels ∧
      (s.heldNotices = none → s.control.notices.length < 62 → ∃ more : List Notice,
        (s.time.stepState = .free → t.control.notices = s.control.notices ++
          [s.time.noticeOf (.step .free .acquire .qualified 0), s.time.noticeOf (.step .acquire .acquire .phaseStep e)] ++
          more) ∧
        (s.time.stepState ≠ .free → t.control.notices = s.control.notices ++
          [s.time.noticeOf (.step s.time.stepState .acquire .phaseStep e)] ++ more) ∧
        (0 < e ∨ (s.time.pendingSet = none ∧ s.assembler.armedSwap = none) → more = []))

/-- Reference lost (R8, R16): the timer is stopped, the loss counted and the reference edge kept; FREE and HOLDOVER stay,
ACQUIRE becomes FREE, INSTEP becomes HOLDOVER with the countdown loaded, or FREE when the holdover limit is 0; the loop
holds. A change of state raises one STEP notice with cause REFERENCE_LOST (R23), and the permit falls where its condition
fails (R20). -/
def Obligations.ReferenceLost : Prop :=
  ∀ (s : State), s.time.refTimer = some 0 →
    ∃ (t : State), exec .referenceLost s = .next t ∧ t.time.refTimer = none ∧ t.time.refExpired = true ∧
      t.time.refEdge = s.time.refEdge ∧ t.time.lostCount = min (s.time.lostCount + 1) 4294967295 ∧
      t.time.integrator = s.time.integrator ∧ t.time.steering = s.time.steering ∧ t.time.tick = s.time.tick ∧
      t.time.second = s.time.second ∧
      (s.time.stepState = .free ∨ s.time.stepState = .holdover →
        t.time.stepState = s.time.stepState ∧ t.time.holdover = s.time.holdover ∧ t.control = s.control) ∧
      (s.time.stepState = .acquire → t.time.stepState = .free ∧ t.time.qualifyCount = 0) ∧
      (s.time.stepState = .instep → 0 < s.time.config.holdoverLimit →
        t.time.stepState = .holdover ∧ t.time.holdover = some s.time.config.holdoverLimit) ∧
      (s.time.stepState = .instep → s.time.config.holdoverLimit = 0 →
        t.time.stepState = .free ∧ t.time.qualifyCount = 0) ∧
      t.output.permit = (if s.time.stepState = .acquire ∨ s.time.stepState = .instep then
        s.output.permit && t.permitCondition else s.output.permit) ∧
      (s.time.stepState = .acquire ∨ s.time.stepState = .instep → s.heldNotices = none → s.control.notices.length < 64 →
        t.control = { s.control with
          notices := s.noticesWith (.step s.time.stepState t.time.stepState .referenceLost 0) }) ∧
      t.services = s.services ∧ t.ring = s.ring ∧ t.site = s.site

/-- TIME.SET (R3): held until the next boundary, or refused with PENDING while one is held.
TIME.CLEAR (R11): FLAGS clears the two limit flags; FLAGS AND COUNTS clears the four excursion counts with them; another
choice is refused with RANGE (R201). -/
def Obligations.TimeSetAndClear : Prop :=
  (∀ tag S (s : State), s.mayTake (.timeSet tag S) →
     (s.time.pendingSet = none → exec (.timeSet tag S) s =
       .next (({ s with time := { s.time with pendingSet := some S } } : State).okWaits 0x0102#16 tag [])) ∧
     (s.time.pendingSet ≠ none → exec (.timeSet tag S) s = .next (s.refusalWaits 0x0102#16 tag .pending))) ∧
  ∀ tag (s : State),
    (s.mayTake (.timeClear tag 0#8) → exec (.timeClear tag 0#8) s =
      .next (({ s with time := { s.time with steerLimit := false, intLimit := false } } : State).okWaits
        0x0104#16 tag [])) ∧
    (s.mayTake (.timeClear tag 1#8) → exec (.timeClear tag 1#8) s =
      .next (({ s with time := { s.time with
        steerLimit := false, intLimit := false, glitchCount := 0, longCount := 0, lostCount := 0
        phaseCount := 0 } } : State).okWaits 0x0104#16 tag [])) ∧
    ∀ c, c ≠ 0#8 → c ≠ 1#8 → s.mayTake (.timeClear tag c) →
      exec (.timeClear tag c) s = .next (s.refusalWaits 0x0104#16 tag .range)

/-- TIME.CONFIG (R21): a field outside its range is refused with RANGE, and a change of polarity while the source stays
enabled with BUSY. Accepted, every field takes its new value; disabling the source takes the step state to FREE, forgets
the reference edge, stops the timer and the countdown and sets the qualify count to 0, with one STEP notice of cause
SOURCE_DISABLED unless the state was FREE (R23); the permit follows at once (R20). The ranges are R21's; that the first
value of ENABLED / DISABLED is 0 is the model's reading (log entry 17). -/
def Obligations.TimeConfig : Prop :=
  ∀ tag b (s : State), s.mayTake (.timeConfig tag b) →
    let inRange : Prop := b.source.toNat ≤ 1 ∧ b.polarity.toNat ≤ 1 ∧ 1 ≤ b.window.toNat ∧ b.window.toNat ≤ 1000 ∧
      1 ≤ b.qualify.toNat ∧ b.holdover.toNat ≤ 86400 ∧ b.policy.toNat ≤ 1
    let new : Machine.TimeConfig :=
      { sourceEnabled := decide (b.source = 0#8), polarity := if b.polarity = 0#8 then .rising else .falling
        kp := b.kp.toNat, ki := b.ki.toNat, window := b.window.toNat, qualify := b.qualify.toNat
        holdoverLimit := b.holdover.toNat, policy := if b.policy = 0#8 then .lockstep else .solo }
    (¬inRange → exec (.timeConfig tag b) s = .next (s.refusalWaits 0x0101#16 tag .range)) ∧
    (inRange →
      new.polarity = s.time.config.polarity ∨ s.time.config.sourceEnabled = false ∨ new.sourceEnabled = false →
      ∃ (t : State), exec (.timeConfig tag b) s = .next (t.okWaits 0x0101#16 tag []) ∧ t.time.config = new ∧
        t.time.integrator = s.time.integrator ∧ t.time.steering = s.time.steering ∧
        t.output.permit = (s.output.permit && t.permitCondition) ∧ t.site = s.site ∧ t.services = s.services ∧
        (s.time.config.sourceEnabled = true → new.sourceEnabled = false →
          t.time.stepState = .free ∧ t.time.refEdge = false ∧ t.time.refTimer = none ∧ t.time.holdover = none ∧
            t.time.qualifyCount = 0 ∧ (s.time.stepState = .free → t.control = s.control) ∧
            (s.time.stepState ≠ .free → s.heldNotices = none → s.control.notices.length < 64 →
              t.control = { s.control with
                notices := s.noticesWith (.step s.time.stepState .free .sourceDisabled 0) })) ∧
        (s.time.config.sourceEnabled = false ∨ new.sourceEnabled = true →
          t.time = { s.time with config := new } ∧ t.control = s.control)) ∧
    (inRange →
      new.polarity ≠ s.time.config.polarity → s.time.config.sourceEnabled = true → new.sourceEnabled = true →
      exec (.timeConfig tag b) s = .next (s.refusalWaits 0x0101#16 tag .busy))

/-! ## Reading -/

/-- The requests that read (R22, R56, R92, R108, R110, R116, R127, R132, R145, R193): answered OK with what the state holds,
everything but the reply as it stood, wherever the index or range they carry is one of theirs, and else refused with RANGE.
An entry that is not valid reads with every field absent or 0. Numbers are carried as R201 says: most significant byte
first, a flag as 1 or 0, a choice as its place in its list, a field that may be absent after a presence byte, a list after
its count. The values are those at the handling (log entry 33, DESIGN CHOICE); the layouts that R201 leaves open are the
model's (log entry 18, DESIGN CHOICE), and so is the empty range of PLAN.READ (log entry 36, DESIGN CHOICE). -/
def Obligations.ReadsChangeNothing : Prop :=
  ((∀ k n, (beBytes k n).length = k ∧ beNat (beBytes k n) = n % 256 ^ k) ∧
    (∀ k n, (beInt k n).length = k ∧ beNat (beInt k n) = (n % (256 ^ k : Nat)).toNat) ∧
    encFlag true = [1] ∧ encFlag false = [0] ∧ encFirst true = [0] ∧ encFirst false = [1] ∧
    (∀ {α : Type} k (put : α → Bytes) v, encOpt k put (some v) = 1 :: put v ∧
      encOpt k put none = List.replicate (k + 1) 0) ∧
    (∀ k, encOptNat k = encOpt k (beBytes k)) ∧
    [StepState.free, .acquire, .instep, .holdover].map StepState.code = [0, 1, 2, 3] ∧
    [StepPolicy.lockstep, .solo].map StepPolicy.code = [0, 1] ∧ [Edge.rising, .falling].map Edge.code = [0, 1] ∧
    [PermittedLinks.a, .b, .both].map PermittedLinks.code = [0, 1, 2] ∧
    [StreamClass.service, .shared, .cue, .timing, .drop].map StreamClass.code = [0, 1, 2, 3, 4] ∧
    [SpliceState.network, .primed, .onLocal, .returning].map SpliceState.code = [0, 1, 2, 3] ∧
    [ParamSource.configured, .feed].map ParamSource.code = [0, 1] ∧
    [PlanEntry.null, .site, .spare].map PlanEntry.code = [0, 1, 2] ∧
    [RecordState.armed, .primed, .onLocal, .returning, .done].map RecordState.code = [1, 2, 3, 4, 5] ∧
    [Result.complete, .cutShort, .forcedReturn, .abortedLateCue, .abortedNoClock, .abortedNoChannel, .abortedHost].map
      Result.code = [0, 1, 2, 3, 4, 5, 6] ∧
    [BreakCause.endRule, .host, .cancelCue].map BreakCause.code = [0, 1, 2]) ∧
  ∀ tag (s : State),
    let slots := 10000000 / s.site.period
    let place (p : Pos) : Bytes := beBytes 4 p.second.toNat ++ beBytes 3 p.slot ++
      beBytes 3 (p.second.toNat % 64 * slots + p.slot)
    let current : Bytes := beBytes 3 s.assembler.slot ++ encOptNat 3 s.slotNumber
    (s.mayTake (.timeRead tag) → let u := s.time
      exec (.timeRead tag) s = .next (s.okWaits 0x0103#16 tag (
        beBytes 1 u.stepState.code ++ encFlag u.epochKnown ++
          encOptNat 4 (if u.epochKnown then some u.second.toNat else none) ++ beBytes 4 u.tick ++
          encOptNat 4 (u.pendingSet.map BitVec.toNat) ++ encOptNat 4 u.lastC ++
          encOpt 4 (beInt 4) u.lastE ++ encOptNat 4 u.lastInterval ++ encFlag u.refEdge ++ encFlag u.refExpired ++ beBytes 1 u.qualifyCount ++
          beBytes 1 u.mismatchCount ++ encOptNat 3 u.holdover ++ beInt 4 u.integrator ++ beInt 4 u.steering ++
          encFlag u.steerLimit ++ encFlag u.intLimit ++ beBytes 4 u.glitchCount ++ beBytes 4 u.longCount ++
          beBytes 4 u.lostCount ++ beBytes 4 u.phaseCount ++ encFirst u.config.sourceEnabled ++
          beBytes 1 (Edge.code u.config.polarity) ++ beBytes 1 u.config.kp ++ beBytes 1 u.config.ki ++
          beBytes 2 u.config.window ++ beBytes 1 u.config.qualify ++ beBytes 3 u.config.holdoverLimit ++
          beBytes 1 u.config.policy.code))) ∧
    (∀ k, k.toNat ≤ 15 → s.mayTake (.originRead tag k) →
      exec (.originRead tag k) s = .next (s.okWaits 0x0202#16 tag (match s.origins.get k.toNat with
        | none => List.replicate 8 0
        | some e => 1 :: 1 :: (beBytes 4 e.originId.toNat ++ 1 :: beBytes 1 e.links.code)))) ∧
    (∀ k, k.toNat ≤ 511 → s.mayTake (.streamRead tag k) →
      exec (.streamRead tag k) s = .next (s.okWaits 0x0205#16 tag (match s.streams.get k.toNat with
        | none => List.replicate 121 0
        | some e => 1 :: 1 :: (beBytes 2 e.label ++ 1 :: beBytes 1 e.origin ++ 1 :: beBytes 1 e.cls.code ++
            encOptNat 1 (if e.cls = .service ∨ e.cls = .cue then e.service else none) ++
            (match e.merge with
              | .fresh => List.replicate 71 0
              | .running h seen =>
                1 :: 1 :: (beBytes 4 h.toNat ++ 1 :: (List.range 64).map (fun i => if seen.getLsbD i then 1 else 0))) ++
            beBytes 4 e.counts.accepted ++ beBytes 4 e.counts.duplicate ++ beBytes 4 e.counts.stale ++
            beBytes 4 e.counts.lost ++ beBytes 4 e.counts.late ++ beBytes 4 e.counts.early ++
            beBytes 4 e.counts.collision ++ beBytes 4 e.counts.misaligned ++ beBytes 4 e.counts.untimed ++
            beBytes 4 e.counts.inconsistent)))) ∧
    (∀ k, k.toNat ≤ 63 → s.mayTake (.serviceRead tag k) →
      exec (.serviceRead tag k) s = .next (s.okWaits 0x0207#16 tag (match s.services.get k.toNat with
        | none => List.replicate 35 0
        | some e =>
          let each (put : Component → Bytes) : Bytes := beBytes 1 e.components.length ++ e.components.flatMap put
          1 :: 1 :: (beBytes 2 e.number ++ 1 :: each (fun c => beBytes 2 c.label) ++
            each (fun c => beBytes 1 c.continuity) ++ each (fun c => encFlag c.emittedYet) ++
            each (fun c => encFlag c.awaitDisc) ++
            encOptNat 5 (e.anchor.map (fun a => a.clock.toNat)) ++ encOptNat 3 (e.anchor.map Anchor.slot) ++
            encFlag e.anchor.isSome ++
            beBytes 1 e.splice.code ++ encOptNat 1 e.active ++ beBytes 4 e.replaced ++ beBytes 4 e.localCells ++
            beBytes 4 e.nulls)))) ∧
    (s.mayTake (.releaseRead tag) →
      let span := 64 * slots % 65536 * s.site.period
      exec (.releaseRead tag) s = .next (s.okWaits 0x0301#16 tag (
        beBytes 4 s.release.dn ++ beBytes 1 s.release.dnSource.code ++ beInt 4 s.release.offset ++
          beBytes 1 s.release.offsetSource.code ++ beBytes 4 s.site.latency ++ beBytes 4 s.site.holdMax ++
          beBytes 4 s.site.period ++ beBytes 4 span ++ beBytes 4 (min s.site.holdMax (span - 1)) ++
          beBytes 3 s.ring.length ++
          encOpt 18 (fun r => beBytes 2 r.stream ++ beBytes 4 r.epoch.toNat ++ beBytes 4 r.dn ++ beBytes 1 r.overrides ++
            encFlag r.found ++ encFlag r.clamped ++ encOptNat 4 r.taken) s.release.lastTiming))) ∧
    (s.mayTake (.siteRead tag) → let c := s.site
      exec (.siteRead tag) s = .next (s.okWaits 0x0402#16 tag (
        beBytes 2 c.siteId ++ beBytes 1 c.zone ++ beBytes 4 c.period ++ beInt 4 c.offset ++ beBytes 4 c.latency ++
          beBytes 4 c.dn0 ++ beBytes 4 c.holdMax ++ encFirst c.output ++ encFirst c.mute ++ beBytes 2 c.linkTimeout ++
          beBytes 2 slots ++ encFlag s.output.presenting ++ encFlag s.output.permit ++ encFirst c.output ++
          encFlag (s.linkA.up || s.linkB.up) ++ encFirst c.mute ++ beBytes 1 s.time.config.policy.code ++
          beBytes 1 s.time.stepState.code ++ current ++ beBytes 1 s.assembler.lastGranted))) ∧
    (∀ bank first count, bank = 0#8 ∨ bank = 1#8 → first.toNat + count.toNat ≤ 1024 →
      s.mayTake (.planRead tag bank first count) →
      exec (.planRead tag bank first count) s = .next (s.okWaits 0x0406#16 tag (
        encFlag s.assembler.activeOne ++ beBytes 2 s.assembler.bank0.length ++ beBytes 2 s.assembler.bank1.length ++
          encOptNat 4 (s.assembler.armedSwap.map BitVec.toNat) ++ beBytes 2 count.toNat ++
          (List.range count.toNat).map (fun i => BitVec.ofNat 8
            ((if bank = 1#8 then s.assembler.bank1 else s.assembler.bank0).entry (first.toNat + i)).code)))) ∧
    (s.mayTake (.sitecellRead tag) → exec (.sitecellRead tag) s = .next (s.okWaits 0x0408#16 tag
      (beBytes 1 s.assembler.carousel.length ++ beBytes 1 s.assembler.pointer ++ s.assembler.carousel.flatten))) ∧
    (∀ k, s.mayTake (.clipRead tag k) →
      exec (.clipRead tag k) s = .next (s.okWaits 0x0505#16 tag (match s.clips.get k.toNat with
        | none => List.replicate 37 0
        | some e => (if e.ready then 2 else 1) :: 1 :: (beBytes 4 e.base ++ 1 :: beBytes 4 e.capacity ++
            1 :: beBytes 3 e.duration ++ 1 :: beBytes 5 e.clock.toNat ++ 1 :: beBytes 4 e.period ++
            1 :: beBytes 3 e.written ++ encOptNat 3 e.lastDue ++ encOptNat 1 e.highest ++ beBytes 1 e.pins)))) ∧
    (∀ k, k.toNat ≤ 31 → s.mayTake (.reelRead tag k) →
      let steps := s.reelSteps k.toNat
      ∃ closing : List Nat, exec (.reelRead tag k) s = .next (s.okWaits 0x0507#16 tag (
          beBytes 1 steps.length ++ steps.flatMap (fun x => match x with
            | .play clip => [0, BitVec.ofNat 8 clip, 0]
            | .loop count => [1, 0, BitVec.ofNat 8 count]
            | .next => [2, 0, 0]
            | .hold => [3, 0, 0]) ++
          beBytes 1 closing.length ++ closing.flatMap (beBytes 1) ++
          beBytes 1 (match s.reels.get k.toNat with
            | some r => r.uses
            | none => 0))) ∧
        (reelBalanced steps → closing.length = loopSteps steps ∧
          ∀ i count, steps[i]? = some (.loop count) →
            ∃ j, closing[loopSteps (steps.take i)]? = some j ∧ closesGroup steps i j)) ∧
    (∀ k, k.toNat ≤ 15 → s.mayTake (.insertRead tag k) →
      exec (.insertRead tag k) s = .next (s.okWaits 0x0605#16 tag (match s.insertions.get k.toNat with
        | none => List.replicate 149 0
        | some r =>
          let pos : Option Pos → Bytes := encOpt 10 place
          let play := r.channel.bind (fun c => (s.channels.get c).bind Channel.play)
          beBytes 1 r.state.code ++ encOptNat 1 (r.result.map Result.code) ++ 1 :: beBytes 1 r.service ++
            1 :: (match r.trigger with
              | .cue id => 0 :: beBytes 4 id.toNat ++ List.replicate 7 0
              | .atSlot second slot => 1 :: List.replicate 4 0 ++ beBytes 4 second.toNat ++ beBytes 3 slot) ++
            encOptNat 4 (r.matched.map BitVec.toNat) ++ 1 :: beBytes 1 r.reel ++
            1 :: (match r.endRule with
              | .reel => [0, 0, 0, 0]
              | .cue => [1, 0, 0, 0]
              | .fixed length => 2 :: beBytes 3 length) ++
            1 :: beBytes 4 r.returnLimit ++ pos r.splice ++ encOptNat 1 r.channel ++ pos r.breakSlot ++
            encOpt 2 (fun b => beBytes 1 (BreakCause.code b.1) ++ beBytes 1 (Result.code b.2)) r.brk ++
            pos r.startSlot ++ pos r.endSlot ++ 1 :: beBytes 4 r.localCells ++ 1 :: beBytes 4 r.nulls ++
            encOptNat 1 (play.map Playback.cursor) ++
            encOpt 1 (fun stack => beBytes 1 stack.length ++ stack.flatMap (fun f =>
              beBytes 1 (LoopFrame.bodyStart f) ++ beBytes 1 (f.remaining.getD 0))) (play.map Playback.stack) ++
            encOptNat 1 (play.bind Playback.clip) ++ encOptNat 3 (play.map Playback.nextCell) ++
            pos (play.bind Playback.clipStart) ++ pos (play.bind Playback.clipEnd) ++
            encOptNat 5 (play.map (fun p => p.clock.toNat)) ++
            encOptNat 5 ((play.bind Playback.offset).map BitVec.toNat) ++
            encOpt 1 encFlag (play.map Playback.exitPending) ++ encOptNat 3 (play.bind Playback.lastLag) ++
            encOptNat 4 r.timer))) ∧
    (∀ k, 15 < k.toNat → s.mayTake (.originRead tag k) →
      exec (.originRead tag k) s = .next (s.refusalWaits 0x0202#16 tag .range)) ∧
    (∀ k, 511 < k.toNat → s.mayTake (.streamRead tag k) →
      exec (.streamRead tag k) s = .next (s.refusalWaits 0x0205#16 tag .range)) ∧
    (∀ k, 63 < k.toNat → s.mayTake (.serviceRead tag k) →
      exec (.serviceRead tag k) s = .next (s.refusalWaits 0x0207#16 tag .range)) ∧
    (∀ bank first count, (bank ≠ 0#8 ∧ bank ≠ 1#8) ∨ 1024 < first.toNat + count.toNat →
      s.mayTake (.planRead tag bank first count) →
      exec (.planRead tag bank first count) s = .next (s.refusalWaits 0x0406#16 tag .range)) ∧
    (∀ k, 31 < k.toNat → s.mayTake (.reelRead tag k) →
      exec (.reelRead tag k) s = .next (s.refusalWaits 0x0507#16 tag .range)) ∧
    (∀ k, 15 < k.toNat → s.mayTake (.insertRead tag k) →
      exec (.insertRead tag k) s = .next (s.refusalWaits 0x0605#16 tag .range)) ∧
    (s.mayTake (.systemIdentify tag) → exec (.systemIdentify tag) s = .next (s.okWaits 0x0702#16 tag
      [0, 0, 0x2C, 0x41, 0, 0, 0x0C, 0x30, 1, 0, 0, 0, 16, 0, 0, 2, 0, 0, 0, 0, 64, 0, 0, 1, 0, 0, 0x40, 0, 0,
        0, 0, 0, 32, 0, 0, 0, 24, 0, 0, 0, 16, 0, 0, 0, 8, 0, 0, 4, 0, 0, 0, 0, 8, 0, 0, 0, 64, 0, 0, 6, 0x40]))

/-! ## Distribution links (02) -/

/-- A byte taken on a link (R26): start-of-cell begins a cell in HUNT and in TRAILING; in HUNT other bytes are ignored; in
ASSEMBLING they are added below the 200th; a further extra byte in TRAILING is ignored (R29).
A runt (R27): the cell in progress ends, the runt count rises by one, and the byte begins the next cell; the same byte
as LINK_BYTE does the same.
An overlong cell (R29): the first extra byte counts and is noted; further ones change nothing; start-of-cell clear. -/
def Obligations.LinkBytes : Prop :=
  (∀ l b (s : State),
     ((s.link l).delineation = .hunt ∨ (∃ x, (s.link l).delineation = .trailing x) →
       exec (.linkByte l true b) s = .next (s.setLink l { s.link l with delineation := .assembling [b] })) ∧
     ((s.link l).delineation = .hunt ∨ (s.link l).delineation = .trailing true →
       exec (.linkByte l false b) s = .next s) ∧
     ∀ taken, (s.link l).delineation = .assembling taken → taken.length < 199 →
       exec (.linkByte l false b) s =
         .next (s.setLink l { s.link l with delineation := .assembling (taken ++ [b]) })) ∧
  (∀ l b taken (s : State), (s.link l).delineation = .assembling taken →
     exec (.runt l b) s = .next (s.setLink l { s.link l with
       delineation := .assembling [b]
       counts := { (s.link l).counts with runts := min ((s.link l).counts.runts + 1) 4294967295 } }) ∧
     exec (.linkByte l true b) s = exec (.runt l b) s) ∧
  ∀ l b (s : State), (s.link l).delineation = .trailing false →
    exec (.overlong l b) s = .next (s.setLink l { s.link l with
      delineation := .trailing true
      counts := { (s.link l).counts with overlong := min ((s.link l).counts.overlong + 1) 4294967295 } }) ∧
    exec (.linkByte l false b) s = exec (.overlong l b) s

/-- The byte that completes a cell (R28, R30, R31, R32): the cell is counted; a CRC that fails, or a head stamp outside the
stamp cycle, is counted and discards it; a good cell on an UP link restarts the timer and joins the hand-on queue with its
arrival, or is an overrun when the queue holds 4. -/
def Obligations.CellArrives : Prop :=
  ∀ l b taken (s : State) bytes, (s.link l).delineation = .assembling taken → taken.length = 199 → bytes = taken ++ [b] →
    let k := s.link l
    let cells := min (k.counts.cells + 1) 4294967295
    ((crc32 (bytes.take 12 ++ bytes.drop 16)).toNat ≠ fieldNat bytes 12 4 →
      exec (.cellArrival l b) s = .next (s.setLink l { k with
        delineation := .trailing false
        counts := { k.counts with cells := cells, crcErrors := min (k.counts.crcErrors + 1) 4294967295 } })) ∧
    ((crc32 (bytes.take 12 ++ bytes.drop 16)).toNat = fieldNat bytes 12 4 → 640000000 ≤ fieldNat bytes 8 4 →
      exec (.cellArrival l b) s = .next (s.setLink l { k with
        delineation := .trailing false
        counts := { k.counts with cells := cells, badStamps := min (k.counts.badStamps + 1) 4294967295 } })) ∧
    ((crc32 (bytes.take 12 ++ bytes.drop 16)).toNat = fieldNat bytes 12 4 → fieldNat bytes 8 4 < 640000000 →
      k.up = true →
      exec (.cellArrival l b) s = .next (s.setLink l (if k.handOn.length < 4 then
          { k with
            delineation := .trailing false
            timer := some (s.site.linkTimeout * 10000)
            counts := { k.counts with cells := cells }
            handOn := k.handOn ++ [{
              link := l, originId := BitVec.ofNat 32 (fieldNat bytes 0 4), seq := BitVec.ofNat 32 (fieldNat bytes 4 4)
              headStamp := fieldNat bytes 8 4, cell := bytes.drop 16, arrivalTick := s.time.tick
              arrivalStamp := if s.time.epochKnown then
                  some (s.time.second.toNat % 64 * 10000000 + s.time.tick) else none
              arrivalBoundaries := s.time.boundaries }] }
        else { k with
          delineation := .trailing false
          timer := some (s.site.linkTimeout * 10000)
          counts := { k.counts with cells := cells, overruns := min (k.counts.overruns + 1) 4294967295 } })))

/-- A good cell on a DOWN link (R34, R35, R28, R32): the link becomes UP before the cell joins the queue, its timer starts,
the cell is counted and joins the hand-on queue with its arrival, or is an overrun when the queue holds 4, the receiver is in
TRAILING, and a LINK notice is raised, with a FEED notice after it when the other link is DOWN.
The link timer's expiry (R33, R35, R20): the link becomes DOWN, a LINK notice is raised, and a FEED notice after it when
the other link is DOWN; under feed-loss mute the permit falls with the feed. With 64 notices queued both drop theirs and set
the notices-lost flag (R190). -/
def Obligations.LinkUpAndDown : Prop :=
  (∀ l b taken (s : State) bytes, (s.link l).delineation = .assembling taken → taken.length = 199 → bytes = taken ++ [b] →
     (crc32 (bytes.take 12 ++ bytes.drop 16)).toNat = fieldNat bytes 12 4 → fieldNat bytes 8 4 < 640000000 →
     (s.link l).up = false →
     let k := s.link l
     let cells := min (k.counts.cells + 1) 4294967295
     let good : GoodCell := {
       link := l, originId := BitVec.ofNat 32 (fieldNat bytes 0 4), seq := BitVec.ofNat 32 (fieldNat bytes 4 4)
       headStamp := fieldNat bytes 8 4, cell := bytes.drop 16, arrivalTick := s.time.tick
       arrivalStamp := if s.time.epochKnown then some (s.time.second.toNat % 64 * 10000000 + s.time.tick) else none
       arrivalBoundaries := s.time.boundaries }
     ∃ (t : State), exec (.cellArrival l b) s = .next t ∧
       t = { s with linkA := t.linkA, linkB := t.linkB, control := t.control } ∧
       t.link l = (if k.handOn.length < 4 then
           { k with
             delineation := .trailing false, up := true, timer := some (s.site.linkTimeout * 10000)
             counts := { k.counts with cells := cells }, handOn := k.handOn ++ [good] }
         else
           { k with
             delineation := .trailing false, up := true, timer := some (s.site.linkTimeout * 10000)
             counts := { k.counts with
               cells := cells, overruns := min (k.counts.overruns + 1) 4294967295 } }) ∧
       t.link (otherLink l) = s.link (otherLink l) ∧
       (s.control.notices.length < 63 → t.control = { s.control with
         notices := s.control.notices ++ [s.time.noticeOf (.link l true)] ++
           (if (s.link (otherLink l)).up then [] else [s.time.noticeOf (.feed true l)]) }) ∧
       (64 ≤ s.control.notices.length → t.control = { s.control with noticesLost := true })) ∧
  (∀ l (s : State), (s.link l).timer = some 0 → 64 ≤ s.control.notices.length →
    ∃ (t : State), exec (.linkTimeout l) s = .next t ∧ t.control = { s.control with noticesLost := true } ∧
      t.link l = { s.link l with up := false, timer := none }) ∧
  ∀ l (s : State), (s.link l).timer = some 0 → s.control.notices.length < 63 →
    ∃ (t : State), exec (.linkTimeout l) s = .next t ∧
      t.link l = { s.link l with up := false, timer := none } ∧ t.link (otherLink l) = s.link (otherLink l) ∧
      t.control.notices = s.control.notices ++ [s.time.noticeOf (.link l false)] ++
        (if (s.link (otherLink l)).up then [] else [s.time.noticeOf (.feed false l)]) ∧
      (s.site.mute = true → (s.link (otherLink l)).up = false → t.output.permit = false) ∧
      t.ring = s.ring ∧ t.insertions = s.insertions ∧ t.services = s.services ∧ t.time = s.time

/-! ## Classification and merge (03, 04) -/

/-- A cell of a stream that its merge accepts (R69, R43, R44): the record the merge leaves, the accepted, lost and
first-arrival counts, the notice of a resynchronisation (R67), and the cell handed on by its class with what the lookup
found. -/
def Obligations.CellTakeAccepted : Prop :=
  ∀ l c rest (s : State) o k e m lost jump, (s.link l).handOn = c :: rest → c.link = l →
    originLookup s.origins c.originId l = some o → streamLookup s.streams (cellLabel c.cell) o = some (k, e) →
    mergeCell e.merge c.seq = .accepted m lost jump → s.control.notices.length < 64 →
    let h : HandedCell := { item := c, stream := k, origin := o, cls := e.cls, service := e.service }
    exec (.cellTake l) s = .next { (s.setLink l { s.link l with
        handOn := rest
        counts := { (s.link l).counts with firstArrivals := min ((s.link l).counts.firstArrivals + 1) 4294967295 } }) with
      streams := s.streams.put k { e with
        merge := m
        counts := { e.counts with
          accepted := min (e.counts.accepted + 1) 4294967295, lost := min (e.counts.lost + lost) 4294967295 } }
      control := { s.control with notices := match jump with
        | some old => s.noticesWith (.seqJump k l old c.seq)
        | none => s.control.notices }
      toRelease := if e.cls = .service ∨ e.cls = .shared ∨ e.cls = .cue then s.toRelease ++ [h] else s.toRelease
      toTiming := if e.cls = .timing then s.toTiming ++ [h] else s.toTiming
      toCue := if e.cls = .cue then s.toCue ++ [h] else s.toCue }

/-- The merge of a cell against a record (R60 to R67). Mark k stands for the number H - k; the numbers above H are unseen.
At an advance by d the lost count is of the numbers that leave the window unseen (R63). -/
def Obligations.MergeByDistance : Prop :=
  (∀ s, mergeCell .fresh s = .accepted (.running s (BitVec.allOnes 64)) 0 none) ∧
  ∀ (h s : Seq) (seen : BitVec 64) (d : Int), d = (s - h).toInt →
    (1 ≤ d → d ≤ 4096 → ∃ w, mergeCell (.running h seen) s = .accepted (.running s w)
        ((List.range d.toNat).countP (fun i => if i < 64 then !seen.getLsbD (63 - i) else true)) none ∧
      ∀ k < 64, w.getLsbD k = (if k = 0 then true else if (k : Int) < d then false
        else seen.getLsbD (k - d.toNat))) ∧
    (d = 0 → mergeCell (.running h seen) s = .duplicate) ∧
    (-63 ≤ d → d ≤ -1 → seen.getLsbD (-d).toNat = true → mergeCell (.running h seen) s = .duplicate) ∧
    (-63 ≤ d → d ≤ -1 → seen.getLsbD (-d).toNat = false →
      ∃ w, mergeCell (.running h seen) s = .accepted (.running h w) 0 none ∧
        ∀ k < 64, w.getLsbD k = (seen.getLsbD k || decide ((k : Int) = -d))) ∧
    (-4096 ≤ d → d ≤ -64 → mergeCell (.running h seen) s = .stale) ∧
    (4096 < d ∨ d < -4096 → mergeCell (.running h seen) s = .accepted (.running s (BitVec.allOnes 64)) 0 (some h))

/-- The two lookups (R40, R42): what each finds is a valid entry that holds the cell's origin id and permits its link, or
its label and origin index; and what it does not find no valid entry holds. -/
def Obligations.Lookups : Prop :=
  (∀ origins id l o, originLookup origins id l = some o → ∃ e, (o, e) ∈ origins ∧ e.originId = id ∧
    (e.links = .both ∨ (e.links = .a ∧ l = .a) ∨ (e.links = .b ∧ l = .b))) ∧
  (∀ origins id l, originLookup origins id l = none → ∀ j e, (j, e) ∈ origins → e.originId = id →
    (e.links = .a ∧ l = .b) ∨ (e.links = .b ∧ l = .a)) ∧
  (∀ streams label origin k e, streamLookup streams label origin = some (k, e) →
    (k, e) ∈ streams ∧ e.label = label ∧ e.origin = origin) ∧
  ∀ streams label origin, streamLookup streams label origin = none →
    ∀ j e, (j, e) ∈ streams → e.label ≠ label ∨ e.origin ≠ origin

/-- A cell that no entry matches (R40 to R42): taken from its queue and counted as unknown origin or as a stream miss; the
first unknown origin raises the link's flag and a notice, and the raised flag keeps the notice from being raised again
(R41). A duplicate (R65, R69): discarded, with the stream's duplicate count and the link's second-arrival count one up, and
the record unchanged; a stale cell (R66) raises the stale count alone. -/
def Obligations.CellTakeDiscards : Prop :=
  ∀ l c rest (s : State), (s.link l).handOn = c :: rest → c.link = l →
    (originLookup s.origins c.originId l = none →
      let k : LinkState := { s.link l with
        handOn := rest
        unknownFlag := true
        counts := { (s.link l).counts with
          unknownOrigin := min ((s.link l).counts.unknownOrigin + 1) 4294967295 } }
      ((s.link l).unknownFlag = true → exec (.cellTake l) s = .next (s.setLink l k)) ∧
      ((s.link l).unknownFlag = false → s.control.notices.length < 64 →
        ∃ known, exec (.cellTake l) s = .next { (s.setLink l k) with control := { s.control with
            notices := s.noticesWith (.originUnknown l c.originId (cellLabel c.cell) known) } } ∧
          (known = true ↔ ∃ j e, (j, e) ∈ s.origins ∧ e.originId = c.originId))) ∧
    ∀ o, originLookup s.origins c.originId l = some o →
      (streamLookup s.streams (cellLabel c.cell) o = none →
        exec (.cellTake l) s = .next (s.setLink l { s.link l with
          handOn := rest
          counts := { (s.link l).counts with streamMisses := min ((s.link l).counts.streamMisses + 1) 4294967295 } })) ∧
      ∀ k e, streamLookup s.streams (cellLabel c.cell) o = some (k, e) →
        (mergeCell e.merge c.seq = .duplicate →
          exec (.cellTake l) s = .next { (s.setLink l { s.link l with
              handOn := rest
              counts := { (s.link l).counts with
                secondArrivals := min ((s.link l).counts.secondArrivals + 1) 4294967295 } }) with
            streams := s.streams.put k { e with
              counts := { e.counts with duplicate := min (e.counts.duplicate + 1) 4294967295 } } }) ∧
        (mergeCell e.merge c.seq = .stale →
          exec (.cellTake l) s = .next { (s.setLink l { s.link l with handOn := rest }) with
            streams := s.streams.put k { e with
              counts := { e.counts with stale := min (e.counts.stale + 1) 4294967295 } } })

/-- ORIGIN.SET (R48, R49): RANGE, DUPLICATE for an origin id that another valid entry holds, a valid write that sets the
records of the entry's streams FRESH when it changes the origin id of a valid entry, IN_USE for a valid entry that a stream
names, and an invalidation. -/
def Obligations.OriginSet : Prop :=
  ∀ tag index valid (id : BitVec 32) links (s : State), s.mayTake (.originSet tag index valid id links) →
    let dup : Prop := ∃ j e, (j, e) ∈ s.origins ∧ j ≠ index.toNat ∧ e.originId = id
    let used : Prop := (s.origins.get index.toNat).isSome = true ∧ ∃ j e, (j, e) ∈ s.streams ∧ e.origin = index.toNat
    (15 < index.toNat ∨ (valid ≠ 0#8 ∧ valid ≠ 1#8) ∨ 2 < links.toNat →
      exec (.originSet tag index valid id links) s = .next (s.refusalWaits 0x0201#16 tag .range)) ∧
    (index.toNat ≤ 15 → links.toNat ≤ 2 →
      let p : PermittedLinks := if links = 0#8 then .a else if links = 1#8 then .b else .both
      (valid = 1#8 → dup →
        exec (.originSet tag index valid id links) s = .next (s.refusalWaits 0x0201#16 tag .duplicate)) ∧
      (valid = 1#8 → ¬dup → ∃ (t : State),
        exec (.originSet tag index valid id links) s = .next (t.okWaits 0x0201#16 tag []) ∧
          t = { s with origins := s.origins.put index.toNat { originId := id, links := p }, streams := t.streams } ∧
          ∀ k, t.streams.get k = (s.streams.get k).map (fun e =>
            if (∃ old, s.origins.get index.toNat = some old ∧ old.originId ≠ id) ∧ e.origin = index.toNat then
              { e with merge := .fresh } else e)) ∧
      (valid = 0#8 → used →
        exec (.originSet tag index valid id links) s = .next (s.refusalWaits 0x0201#16 tag .inUse)) ∧
      (valid = 0#8 → ¬used →
        exec (.originSet tag index valid id links) s = .next
          (({ s with origins := s.origins.del index.toNat } : State).okWaits 0x0201#16 tag [])))

/-- STREAM.SET (R50, R51): its checks in order after the ranges, and its acceptance, which keeps the record and the
counters of an entry whose key and class are unchanged. STREAM.CLEAR (R52): BUSY while the service the entry names is
spliced, else the entry is invalid. -/
def Obligations.StreamSetAndClear : Prop :=
  (∀ tag b (s : State), s.mayTake (.streamSet tag b) →
    let spliced (k : Option Nat) : Prop := ∃ n, k = some n ∧ s.spliceOf n ≠ .network
    let named : Prop := b.cls = 0#8 ∨ b.cls = 2#8
    let inRange : Prop := b.index.toNat ≤ 511 ∧ b.label.toNat ≤ 4094 ∧ b.origin.toNat ≤ 15 ∧ b.cls.toNat ≤ 4 ∧
      (named → b.service.toNat ≤ 63)
    let cls : StreamClass := [.service, .shared, .cue, .timing, .drop].getD b.cls.toNat .drop
    let service : Option Nat := if named then some b.service.toNat else none
    (¬inRange → exec (.streamSet tag b) s = .next (s.refusalWaits 0x0203#16 tag .range)) ∧
    (inRange →
      let noOrigin : Prop := s.origins.get b.origin.toNat = none
      let dup : Prop := ∃ j e, (j, e) ∈ s.streams ∧ j ≠ b.index.toNat ∧ e.label = b.label.toNat ∧ e.origin = b.origin.toNat
      let noService : Prop := ∃ k, service = some k ∧ s.services.get k = none
      let mapped : Prop := cls = .service → ∃ k x, service = some k ∧ s.services.get k = some x ∧ b.label.toNat ∈ x.labels
      let busy : Prop := spliced service ∨
        ∃ e, s.streams.get b.index.toNat = some e ∧ e.cls.needsService = true ∧ spliced e.service
      (noOrigin → exec (.streamSet tag b) s = .next (s.refusalWaits 0x0203#16 tag .state)) ∧
      (¬noOrigin → dup → exec (.streamSet tag b) s = .next (s.refusalWaits 0x0203#16 tag .duplicate)) ∧
      (¬noOrigin → ¬dup → noService →
        exec (.streamSet tag b) s = .next (s.refusalWaits 0x0203#16 tag .noService)) ∧
      (¬noOrigin → ¬dup → ¬noService → ¬mapped →
        exec (.streamSet tag b) s = .next (s.refusalWaits 0x0203#16 tag .notMapped)) ∧
      (¬noOrigin → ¬dup → ¬noService → mapped → busy →
        exec (.streamSet tag b) s = .next (s.refusalWaits 0x0203#16 tag .busy)) ∧
      (¬noOrigin → ¬dup → ¬noService → mapped → ¬busy →
        ∃ x : StreamEntry, exec (.streamSet tag b) s = .next (({ s with streams := s.streams.put b.index.toNat x } : State).okWaits
            0x0203#16 tag []) ∧
          x.label = b.label.toNat ∧ x.origin = b.origin.toNat ∧ x.cls = cls ∧ x.service = service ∧
          (∀ e, s.streams.get b.index.toNat = some e → e.label = b.label.toNat → e.origin = b.origin.toNat → e.cls = cls →
            x.merge = e.merge ∧ x.counts = e.counts) ∧
          ((∀ e, s.streams.get b.index.toNat = some e → e.label ≠ b.label.toNat ∨ e.origin ≠ b.origin.toNat ∨ e.cls ≠ cls) →
            x.merge = .fresh ∧ x.counts = .zero)))) ∧
  ∀ tag index (s : State), s.mayTake (.streamClear tag index) →
    let busy : Prop := ∃ e k, s.streams.get index.toNat = some e ∧ e.cls.needsService = true ∧ e.service = some k ∧
      s.spliceOf k ≠ .network
    (511 < index.toNat → exec (.streamClear tag index) s = .next (s.refusalWaits 0x0204#16 tag .range)) ∧
    (index.toNat ≤ 511 → busy → exec (.streamClear tag index) s = .next (s.refusalWaits 0x0204#16 tag .busy)) ∧
    (index.toNat ≤ 511 → ¬busy → exec (.streamClear tag index) s =
      .next (({ s with streams := s.streams.del index.toNat } : State).okWaits 0x0204#16 tag []))

/-- SERVICE.SET with valid set (R53, R54): its checks in order after the ranges, and its acceptance, component by
component. With valid clear (R55): IN_USE, or the service is invalid. -/
def Obligations.ServiceSet : Prop :=
  let inRange (labels : List (BitVec 16)) : Prop := 1 ≤ labels.length ∧ labels.length ≤ 4 ∧ ∀ l ∈ labels, l.toNat ≤ 4094
  (∀ tag b (s : State), b.labels.length ≤ 255 → s.mayTake (.serviceSet tag b) →
    63 < b.index.toNat ∨ (b.valid ≠ 0#8 ∧ b.valid ≠ 1#8) ∨ (b.valid = 1#8 ∧ ¬inRange b.labels) →
    exec (.serviceSet tag b) s = .next (s.refusalWaits 0x0206#16 tag .range)) ∧
  (∀ tag b (s : State), b.index.toNat ≤ 63 → b.valid = 1#8 → inRange b.labels → s.mayTake (.serviceSet tag b) →
    let labels : List Nat := b.labels.map BitVec.toNat
    let dup : Prop := ¬labels.Nodup ∨
      ∃ j e l, (j, e) ∈ s.services ∧ j ≠ b.index.toNat ∧ l ∈ e.labels ∧ l ∈ labels
    let busy : Prop := s.spliceOf b.index.toNat ≠ .network
    let lost : Prop := ∃ j e, (j, e) ∈ s.streams ∧ e.cls = .service ∧ e.service = some b.index.toNat ∧ e.label ∉ labels
    let armed : Prop := (∃ e, s.services.get b.index.toNat = some e ∧ labels.length < e.components.length) ∧
      ∃ j r, (j, r) ∈ s.insertions ∧ r.state = .armed ∧ r.service = b.index.toNat
    (dup → exec (.serviceSet tag b) s = .next (s.refusalWaits 0x0206#16 tag .duplicate)) ∧
    (¬dup → busy → exec (.serviceSet tag b) s = .next (s.refusalWaits 0x0206#16 tag .busy)) ∧
    (¬dup → ¬busy → lost → exec (.serviceSet tag b) s = .next (s.refusalWaits 0x0206#16 tag .notMapped)) ∧
    (¬dup → ¬busy → ¬lost → armed → exec (.serviceSet tag b) s = .next (s.refusalWaits 0x0206#16 tag .inUse)) ∧
    (¬dup → ¬busy → ¬lost → ¬armed →
      ∃ x : ServiceEntry, exec (.serviceSet tag b) s = .next (({ s with services := s.services.put b.index.toNat x } : State).okWaits
          0x0206#16 tag []) ∧
        x.number = b.number.toNat ∧ x.labels = labels ∧
        (s.services.get b.index.toNat = none →
          x.anchor = none ∧ x.splice = .network ∧ x.active = none ∧ x.replaced = 0 ∧ x.localCells = 0 ∧ x.nulls = 0 ∧
            ∀ (i : Nat) (c : Component), x.components[i]? = some c → c.continuity = 0 ∧ c.emittedYet = false ∧ c.awaitDisc = false) ∧
        (∀ e, s.services.get b.index.toNat = some e →
          x.splice = e.splice ∧ x.active = e.active ∧ x.replaced = e.replaced ∧ x.localCells = e.localCells ∧
            x.nulls = e.nulls ∧
            (e.labels.head? = labels.head? → x.anchor = e.anchor) ∧
            (e.labels.head? ≠ labels.head? → x.anchor = none) ∧
            ∀ (i : Nat) (c : Component), x.components[i]? = some c →
              (∀ (old : Component), e.components[i]? = some old → old.label = c.label → c = old) ∧
              ((∀ (old : Component), e.components[i]? = some old → old.label ≠ c.label) →
                c.continuity = 0 ∧ c.emittedYet = false ∧ c.awaitDisc = false)))) ∧
  ∀ tag b (s : State), b.index.toNat ≤ 63 → b.valid = 0#8 → b.labels.length ≤ 255 → s.mayTake (.serviceSet tag b) →
    let used : Prop := (∃ j e, (j, e) ∈ s.streams ∧ e.cls.needsService = true ∧ e.service = some b.index.toNat) ∨
      ∃ j r, (j, r) ∈ s.insertions ∧ r.state ≠ .done ∧ r.service = b.index.toNat
    (used → exec (.serviceSet tag b) s = .next (s.refusalWaits 0x0206#16 tag .inUse)) ∧
    (¬used → exec (.serviceSet tag b) s =
      .next (({ s with services := s.services.del b.index.toNat } : State).okWaits 0x0206#16 tag []))

/-! ## Release (05) -/

/-- An untimed cell (R80): discarded, with its stream's untimed count one up; no other step is taken. -/
def Obligations.UntimedCellDiscarded : Prop :=
  ∀ h rest (s : State) k e, s.toRelease = h :: rest → h.item.arrivalStamp = none → h.stream = k → s.streams.get k = some e →
    e.origin = h.origin → e.label = cellLabel h.item.cell → e.cls = h.cls →
    exec .releaseComputation s = .next { s with
      toRelease := rest
      streams := s.streams.put k { e with
        counts := { e.counts with untimed := min (e.counts.untimed + 1) 4294967295 } } }

/-- The release computation of a timed cell (R81 to R84): R is E + Dn + Δ - Lx modulo the stamp cycle and g is R divided by
P, rounded down; a misaligned R is counted; late below 2P, early above the hold limit, late when the slot has begun at the
write, a collision when the entry is valid; else the entry is written with tag g and the cell as it arrived (R86). -/
def Obligations.ReleaseComputation : Prop :=
  ∀ h rest (s : State) a (g R : Nat), s.toRelease = h :: rest → h.item.arrivalStamp = some a → s.time.epochKnown = true →
    (R : Int) = ((h.item.headStamp : Int) + s.release.dn + s.release.offset - s.site.latency) % 640000000 →
    g = R / s.site.period →
    let w := s.time.second.toNat % 64 * 10000000 + s.time.tick
    let start := g * s.site.period
    let count (f : StreamCounts → StreamCounts) (st : Table StreamEntry) : Table StreamEntry :=
      countStream st h.stream h.origin (cellLabel h.item.cell) h.cls f
    let st := if R % s.site.period ≠ 0 then
        count (fun c => { c with misaligned := min (c.misaligned + 1) 4294967295 }) s.streams
      else s.streams
    (stampDiff start a < 2 * s.site.period →
      exec .releaseComputation s = .next { s with
        toRelease := rest, streams := count (fun c => { c with late := min (c.late + 1) 4294967295 }) st }) ∧
    (2 * s.site.period ≤ stampDiff start a → (s.site.holdLimit : Int) < stampDiff start a →
      exec .releaseComputation s = .next { s with
        toRelease := rest, streams := count (fun c => { c with early := min (c.early + 1) 4294967295 }) st }) ∧
    (2 * s.site.period ≤ stampDiff start a → stampDiff start a ≤ s.site.holdLimit → stampDiff start w ≤ 0 →
      exec .releaseComputation s = .next { s with
        toRelease := rest, streams := count (fun c => { c with late := min (c.late + 1) 4294967295 }) st }) ∧
    (2 * s.site.period ≤ stampDiff start a → stampDiff start a ≤ s.site.holdLimit → 0 < stampDiff start w →
      (s.ring.get (g % 65536)).isSome = true →
      exec .releaseComputation s = .next { s with
        toRelease := rest, streams := count (fun c => { c with collision := min (c.collision + 1) 4294967295 }) st }) ∧
    (2 * s.site.period ≤ stampDiff start a → stampDiff start a ≤ s.site.holdLimit → 0 < stampDiff start w →
      s.ring.get (g % 65536) = none →
      exec .releaseComputation s = .next { s with
        toRelease := rest
        streams := st
        ring := s.ring.put (g % 65536) { tag := g, stream := h.stream, origin := h.origin, cls := h.cls
                                         service := h.service, cell := h.item.cell } })

/-- A timing cell (R75, R76, R18, R19): a malformed one, and one whose X does not fit its head stamp, raises its stream's
inconsistent count alone; a consistent one sets Dn, and the site offset from the first override of the site, clamped, or
from SITE.CONFIG when it carries none; its derived second Y is adopted while the epoch is unknown, clears the mismatch
count when it is the second number, and is adopted again at the third mismatch in a row. That is an epoch move (R5): INSTEP
becomes ACQUIRE and HOLDOVER becomes FREE without its countdown, both with the qualify count 0; else the step state
stays.
A consistent one replaces the last timing record (R76). The notices join in this order (R75, R5): OFFSET_CLAMP when the
offset of the site's override was clamped, EPOCH with cause ADOPTED or READOPTED, with the stamp after the adoption (R19,
R23), and STEP with cause EPOCH_MOVED where the move changes the step state.
The current position (R139): a known one stays until the next slot boundary (R96); at an adoption a slot of the second in
progress lies in Y, and one of the second before it, slot 0 being still due, in Y - 1 (the model's reading, log entry 27,
DEDUCED). -/
def Obligations.TimingCell : Prop :=
  ∀ h rest (s : State) p, s.toTiming = h :: rest → p = h.item.cell.drop 4 →
    let n := (byteAt p 8).toNat
    let x := BitVec.ofNat 32 (fieldNat p 0 4)
    let y := (if h.item.headStamp % 10000000 ≤ h.item.arrivalTick then x else x + 1) +
      BitVec.ofNat 32 (s.time.boundaries - h.item.arrivalBoundaries)
    let counted : State := { s with
      toTiming := rest
      streams := countStream s.streams h.stream h.origin (cellLabel h.item.cell) h.cls
        (fun c => { c with inconsistent := min (c.inconsistent + 1) 4294967295 }) }
    let readopted : Prop := s.time.epochKnown = true ∧ y ≠ s.time.second ∧ 2 ≤ s.time.mismatchCount
    let joins (t : State) (clamped : List Notice) : Prop :=
      s.heldNotices = none → s.control.notices.length < 62 → ∃ epoch step : List Notice,
        t.control = { s.control with notices := s.control.notices ++ clamped ++ epoch ++ step } ∧
        (s.time.epochKnown = false → epoch = [t.time.noticeOf (.epoch .adopted none y)] ∧ step = []) ∧
        (readopted → epoch = [t.time.noticeOf (.epoch .readopted (some s.time.second) y)] ∧
          (s.time.stepState = .instep → step = [t.time.noticeOf (.step .instep .acquire .epochMoved 0)]) ∧
          (s.time.stepState = .holdover → step = [t.time.noticeOf (.step .holdover .free .epochMoved 0)]) ∧
          (s.time.stepState = .free ∨ s.time.stepState = .acquire → step = [])) ∧
        (s.time.epochKnown = true → ¬readopted → epoch = [] ∧ step = [])
    (8 < n ∨ 9999999 < fieldNat p 4 4 → exec .timingCell s = .next counted) ∧
    (n ≤ 8 → fieldNat p 4 4 ≤ 9999999 → x.toNat % 64 ≠ h.item.headStamp / 10000000 →
      exec .timingCell s = .next counted) ∧
    (n ≤ 8 → fieldNat p 4 4 ≤ 9999999 → x.toNat % 64 = h.item.headStamp / 10000000 →
      ∃ (t : State) (record : TimingRecord), exec .timingCell s = .next t ∧ t.toTiming = rest ∧
        t.release.dn = fieldNat p 4 4 ∧ t.release.lastTiming = some record ∧ record.stream = h.stream ∧
        record.epoch = x ∧ record.dn = fieldNat p 4 4 ∧ record.overrides = n ∧
        record.taken = (if s.time.epochKnown then some (s.time.second.toNat % 64 * 10000000 + s.time.tick) else none) ∧
        t.release.dnSource = .feed ∧ t.ring = s.ring ∧ t.streams = s.streams ∧ t.site = s.site ∧
        t.time.tick = s.time.tick ∧ t.time.epochKnown = true ∧
        (s.time.epochKnown = true → t.currentPos = s.currentPos) ∧
        (s.time.epochKnown = false →
          (s.assembler.slotSecond = s.time.second → t.currentPos = some { second := y, slot := s.assembler.slot }) ∧
          (s.assembler.slotSecond + 1 = s.time.second →
            t.currentPos = some { second := y - 1, slot := s.assembler.slot })) ∧
        (∀ k, k < n → fieldNat p (9 + 6 * k) 2 = s.site.siteId →
          (∀ j, j < k → fieldNat p (9 + 6 * j) 2 ≠ s.site.siteId) →
          let received := fieldInt32 p (11 + 6 * k)
          let used := max (-5000000) (min 5000000 received)
          t.release.offset = used ∧ t.release.offsetSource = .feed ∧ record.found = true ∧
            record.clamped = decide (used ≠ received) ∧ (used = received → joins t []) ∧
            (used ≠ received → joins t [s.time.noticeOf (.offsetClamp h.stream s.site.siteId received used)])) ∧
        ((∀ k, k < n → fieldNat p (9 + 6 * k) 2 ≠ s.site.siteId) →
          t.release.offset = s.site.offset ∧ t.release.offsetSource = .configured ∧ record.found = false ∧
            record.clamped = false ∧ joins t []) ∧
        (s.time.epochKnown = false → t.time.second = y ∧ t.time.mismatchCount = 0 ∧ t.services = s.services) ∧
        (s.time.epochKnown = true → y = s.time.second →
          t.time.second = y ∧ t.time.mismatchCount = 0 ∧ t.services = s.services) ∧
        (s.time.epochKnown = true → y ≠ s.time.second → s.time.mismatchCount < 2 →
          t.time.second = s.time.second ∧ t.time.mismatchCount = s.time.mismatchCount + 1 ∧ t.services = s.services) ∧
        (s.time.epochKnown = true → y ≠ s.time.second → 2 ≤ s.time.mismatchCount →
          t.time.second = y ∧ t.time.mismatchCount = 0 ∧ (∀ k z, t.services.get k = some z → z.anchor = none) ∧
            (s.time.stepState = .instep → t.time.stepState = .acquire ∧ t.time.qualifyCount = 0) ∧
            (s.time.stepState = .holdover →
              t.time.stepState = .free ∧ t.time.qualifyCount = 0 ∧ t.time.holdover = none) ∧
            (s.time.stepState = .free ∨ s.time.stepState = .acquire → t.time.stepState = s.time.stepState)) ∧
        (s.time.epochKnown = false ∨ y = s.time.second ∨ s.time.mismatchCount < 2 →
          t.time.stepState = s.time.stepState ∧ t.time.qualifyCount = s.time.qualifyCount ∧
            t.time.holdover = s.time.holdover))

/-! ## Emission assembly (06) -/

/-- Each slot yields exactly one cell (R95, R97, R102, R111 to R113): at every slot boundary that is due the slot is taken
from site time, with its number and, as the current position, its epoch second and slot (R139), the records take it, and
one cell is formed, of 184 bytes where every stored cell is whole; it is recorded at the components with its label, and
presented while output is enabled; while it is disabled the data lines and the bytes to come stay; the permit line takes
its condition.
The cell formed (R87, R97): of the slot plan while the slot has no number or the ring holds nothing for it, of the network
candidate when the entry has the slot's tag, and of the plan, with one late cell counted, when the entry is stale.
Slot 0 taken before the second boundary that has come with it (R198, R190; log entry 32): its cell and its notices are those
after the boundary, and the boundary's own notices join the queue behind them at SECOND_BOUNDARY. -/
def Obligations.SlotYieldsOneCell : Prop :=
  (∀ (s : State), s.slotDue = true → s.secondDue = false ∨ s.heldNotices ≠ none →
    let formed := s.beginSlot.insertionBoundary.formCell
    let cell := formed.2
    ∃ (t : State), exec .slotBoundary s = .next t ∧ t.slotDue = false ∧
      t.assembler.slot = s.time.tick / s.site.period ∧
      t.assembler.slotNumber = (if s.time.epochKnown then
        some ((s.time.second.toNat % 64 * 10000000 + s.time.tick) / s.site.period) else none) ∧
      t.currentPos = (if s.time.epochKnown then
        some { second := s.time.second, slot := s.time.tick / s.site.period } else none) ∧
      t.time = s.time ∧ t.site = s.site ∧
      t = { formed.1 with services := t.services, output := t.output } ∧
      (∀ k, t.services.get k = (formed.1.services.get k).map (fun x => { x with
        components := x.components.map (fun c => if c.label = cellLabel cell then
          { c with continuity := cellContinuity cell, emittedYet := true } else c) })) ∧
      (s.site.output = true → t.output = {
        rest := cell.drop 1, presenting := true, data := byteAt cell 0, valid := true, strobe := true
        mark := decide (s.time.tick / s.site.period = 0), permit := s.permitCondition }) ∧
      (s.site.output = false → t.output = { s.output with permit := s.permitCondition }) ∧
      (s.cellsWhole → cell.length = 184)) ∧
  (∀ (s : State), (s.slotNumber = none → s.formCell = s.planCell) ∧
    ∀ g, s.slotNumber = some g →
      (s.ring.get (g % 65536) = none → s.formCell = s.planCell) ∧
      ∀ e, s.ring.get (g % 65536) = some e →
        let taken : State := { s with ring := s.ring.del (g % 65536) }
        (e.tag = g → s.formCell = taken.networkCell g e) ∧
        (e.tag ≠ g → s.formCell = ({ taken with
          streams := countStream s.streams e.stream e.origin (cellLabel e.cell) e.cls
            (fun c => { c with late := min (c.late + 1) 4294967295 }) } : State).planCell)) ∧
  ∀ (s : State), s.slotDue = true → s.secondDue = true → s.heldNotices = none →
    ∃ (b u : State), exec .secondBoundary { s with control := { s.control with notices := [] } } = .next b ∧
      exec .slotBoundary { b with
        control := s.control, secondDue := true, heldNotices := some b.control.notices } = .next u ∧
      exec .slotBoundary s = .next u ∧
      (u.control.notices.length + b.control.notices.length ≤ 64 →
        exec .secondBoundary u = .next { u with
          secondDue := false
          heldNotices := none
          control := { u.control with notices := u.control.notices ++ b.control.notices } })

/-- A cell that passes on unchanged (R87, R97, R99, R102): of class SHARED or CUE, or of class SERVICE with a service that is
invalid; while no insertion record is listed, the ring entry with the slot's tag is taken, the cell is presented unchanged,
and its continuity is recorded at the components with its label.
A SERVICE cell of a service in NETWORK or PRIMED (R98, R99, R177): passed on; with its DISC flag set, and the flag then
cleared, when the component with its label awaits DISC; a CLOCK cell of the clock label renews the anchor.
The same two rules for the cell formed from a network candidate in any state, whatever insertion records stand. -/
def Obligations.NetworkCellsPassedOn : Prop :=
  let plain (s : State) (e : RingEntry) : Prop := e.cls = .shared ∨ e.cls = .cue ∨
    (e.cls = .service ∧ ∃ k, e.service = some k ∧ s.services.get k = none)
  let awaits (x : ServiceEntry) (cell : Bytes) : Bool :=
    x.components.any (fun c => decide (c.label = cellLabel cell) && c.awaitDisc)
  let sent (x : ServiceEntry) (cell : Bytes) : Bytes := if awaits x cell then withDisc cell else cell
  (∀ (s : State) e g, s.slotDue = true → s.secondDue = false → s.insertions = [] → s.time.epochKnown = true →
     s.site.output = true → g = (s.time.second.toNat % 64 * 10000000 + s.time.tick) / s.site.period →
     s.ring.get (g % 65536) = some e → e.tag = g → plain s e → e.cell.length = 184 →
     ∃ (t : State), exec .slotBoundary s = .next t ∧ t.ring = s.ring.del (g % 65536) ∧ t.output.data = byteAt e.cell 0 ∧
       t.output.rest = e.cell.drop 1 ∧ t.streams = s.streams ∧ t.assembler.pointer = s.assembler.pointer ∧
       t.assembler.lastGranted = s.assembler.lastGranted ∧
       (∀ k, t.services.get k = (s.services.get k).map (fun x => { x with
         components := x.components.map (fun c => if c.label = cellLabel e.cell then
           { c with continuity := cellContinuity e.cell, emittedYet := true } else c) }))) ∧
  (∀ (s : State) e g k x, s.slotDue = true → s.secondDue = false → s.insertions = [] → s.time.epochKnown = true →
    s.site.output = true → g = (s.time.second.toNat % 64 * 10000000 + s.time.tick) / s.site.period →
    s.ring.get (g % 65536) = some e → e.tag = g → e.cls = .service → e.service = some k → e.cell.length = 184 →
    s.services.get k = some x → x.splice = .network ∨ x.splice = .primed →
    ∃ (t : State) (x' : _), exec .slotBoundary s = .next t ∧ t.ring = s.ring.del (g % 65536) ∧ t.services.get k = some x' ∧
      t.output.data = byteAt (sent x e.cell) 0 ∧ t.output.rest = (sent x e.cell).drop 1 ∧
      (cellIsClock e.cell = true → x.clockLabel = some (cellLabel e.cell) →
        x'.anchor = some { clock := payloadClock (cellPayload e.cell) 0, slot := g }) ∧
      (cellIsClock e.cell = false ∨ x.clockLabel ≠ some (cellLabel e.cell) → x'.anchor = x.anchor) ∧
      x'.components = x.components.map (fun c => if c.label = cellLabel e.cell then
        { c with continuity := cellContinuity e.cell, emittedYet := true, awaitDisc := false } else c) ∧
      x'.splice = x.splice ∧ x'.replaced = x.replaced) ∧
  ∀ (s : State) g e, (plain s e → s.networkCell g e = (s, e.cell)) ∧
    ∀ k x, e.cls = .service → e.service = some k → s.services.get k = some x →
      x.splice = .network ∨ x.splice = .primed →
      let renewed : Bool := cellIsClock e.cell && decide (x.clockLabel = some (cellLabel e.cell))
      (s.networkCell g e).2 = sent x e.cell ∧
        ∃ x', (s.networkCell g e).1 = { s with services := (s.networkCell g e).1.services } ∧
          (s.networkCell g e).1.services.get k = some x' ∧
          (∀ j, j ≠ k → (s.networkCell g e).1.services.get j = s.services.get j) ∧
          x' = { x with
            anchor := if renewed then some { clock := payloadClock (cellPayload e.cell) 0, slot := g } else x.anchor
            components := x.components.map (fun c =>
              if c.label = cellLabel e.cell then { c with awaitDisc := false } else c) }

/-- A SERVICE candidate of a valid service, in any splice state, first renews the service's clock anchor when it is a CLOCK
cell of the clock label, whatever then becomes of it (R98), and is then the cell of a slot of its service.
The cell of a slot of a spliced service (R100, R101, R138): a network cell of a LOCAL service is replaced by its
channel's due cell, or by the null cell, which is counted at the service and at its record; one of a RETURNING service by
the null cell, unless it is a START cell of the clock label, which ends the return with the pending result, releases the reel and its
clips (R133) and is passed on with DISC (R160).
The cell of a slot with no network candidate (R103 to R105): the null cell at a NULL entry; at a SITE entry the cell at
the carousel pointer, which advances round the carousel, or the null cell of an empty one; at a SPARE entry the due cell of
the first channel after the one last granted, or as at a SITE entry. -/
def Obligations.SplicedAndPlanCells : Prop :=
  (∀ (s : State) g e k x, e.cls = .service → e.service = some k → s.services.get k = some x →
     ∃ (u : State), s.networkCell g e = u.serviceCell k e.cell ∧ u = { s with services := u.services } ∧
       (∀ j, j ≠ k → u.services.get j = s.services.get j) ∧
       u.services.get k = some { x with
         anchor := if cellIsClock e.cell = true ∧ x.clockLabel = some (cellLabel e.cell) then
           some { clock := payloadClock (cellPayload e.cell) 0, slot := g } else x.anchor }) ∧
  (∀ k i r x cell (s : State), s.holder k = some (i, r) → s.insertions.get i = some r → r.service = k →
     s.services.get k = some x →
     let null (t : State) : Prop := (s.serviceCell k cell) = (t, nullCell) ∧
       t.services.get k = some { x with
         replaced := min (x.replaced + 1) 4294967295, nulls := min (x.nulls + 1) 4294967295 } ∧
       t.insertions = s.insertions.put i { r with nulls := min (r.nulls + 1) 4294967295 } ∧
       t.channels = s.channels ∧ t.control = s.control ∧ t.ring = s.ring
     (x.splice = .onLocal → ∀ c, r.channel = some c →
       (s.dueCell c = none → ∃ (t : State), null t) ∧
       ∀ d, s.dueCell c = some d → (s.serviceCell k cell).2 = s.localCell d ∧
         (s.serviceCell k cell).1 = (s.countReplaced k).giveCell d) ∧
     (x.splice = .returning → cellIsStart cell = false ∨ x.clockLabel ≠ some (cellLabel cell) → ∃ (t : State), null t) ∧
     (x.splice = .returning → cellIsStart cell = true → x.clockLabel = some (cellLabel cell) →
       ∀ cause result, r.brk = some (cause, result) → r.state = .returning → s.control.notices.length < 64 →
         ∃ (t : State), s.serviceCell k cell = (t, withDisc cell) ∧
           t.insertions = s.insertions.put i { r with
             state := .done, result := some result, endSlot := s.currentPos, channel := none, timer := none } ∧
           t.services.get k = some { x with
             splice := .network, active := none
             components := x.components.map (fun y => { y with awaitDisc := decide (y.label ≠ cellLabel cell) }) } ∧
           t.control.notices = s.noticesWith (.insert i k .returning .done (.result result) r.matched s.currentNumber) ∧
           t.channels = (match r.channel with
             | some c => s.channels.del c
             | none => s.channels) ∧ s.releases r.reel t)) ∧
  ∀ (s : State) entry,
    entry = s.assembler.activeBank.entry (s.assembler.slot % s.assembler.activeBank.length) →
    let cells := s.assembler.carousel
    let sited (t : State) (cell : Bytes) : Prop :=
      (cells[s.assembler.pointer]? = none → t = s ∧ cell = nullCell) ∧
      ∀ c, cells[s.assembler.pointer]? = some c → cell = c ∧
        t = { s with assembler := { s.assembler with pointer := (s.assembler.pointer + 1) % cells.length } }
    (entry = .null → s.planCell = (s, nullCell)) ∧
    (entry = .site → sited s.planCell.1 s.planCell.2) ∧
    (entry = .spare → (∀ c, c < 8 → s.dueCell c = none) → sited s.planCell.1 s.planCell.2) ∧
    (entry = .spare → ∀ i d, i < 8 → s.dueCell ((s.assembler.lastGranted + 1 + i) % 8) = some d →
      (∀ j, j < i → s.dueCell ((s.assembler.lastGranted + 1 + j) % 8) = none) →
      s.planCell.2 = s.localCell d ∧ s.planCell.1.assembler = { s.assembler with lastGranted := d.channel } ∧
        s.planCell.1.insertions = (s.giveCell d).insertions ∧ s.planCell.1.channels = (s.giveCell d).channels ∧
        s.planCell.1.services = (s.giveCell d).services ∧ s.planCell.1.control = (s.giveCell d).control)

/-- A step on an empty queue, when nothing has come about and no work waits, is one tick of the oscillator (log entry 1,
the model's choice). Where something has come about, no tick passes: every event that has come about is posted, with a free
part of the waiting work, in a free order (log entries 1 and 2, the model's choice); where work alone waits, a free part of
it is posted, or none of it and a tick passes. What has come about is a due second boundary, a due slot boundary and each
timer that has run out; what waits is each queue's first cell and the outstanding request.
A tick: the tick count advances by one below its end (R1) and a slot boundary is due exactly at the multiples of P (R95). At
the end of the second the second boundary and slot 0 are due and the second number stays until one of them is taken, which
is the model's reading (log entry 6, DEDUCED). The interval counter counts from a reference edge on and holds at its end
(R6); the reference timer, the link timers and the return-limit timers that run have one tick less left (R8, R33, R161).
The Output Port between slot boundaries (R112): each tick presents the next byte with the slot strobe and the second
mark deasserted; after the last byte valid is deasserted, and the data lines are 0 while output is disabled (R111). Nothing
else changes at a tick but the model's own count of free choices (log entry 2). -/
def Obligations.EmptyQueueTicks : Prop :=
  (∀ (s : State), s.pending = [] → s.dueEvents = [] → s.waiting = [] → step s = .next s.tick) ∧
  (∀ (s : State), s.pending = [] → s.dueEvents ≠ [] → ∃ work posted : List Instr, work.Sublist s.waiting ∧
    posted.Perm (s.dueEvents ++ work) ∧ step s = .next { s with pending := posted, freeCount := s.freeCount + 1 }) ∧
  (∀ (s : State), s.pending = [] → s.dueEvents = [] → s.waiting ≠ [] → ∃ work posted : List Instr,
    work.Sublist s.waiting ∧ posted.Perm work ∧
      (work = [] → step s = .next ({ s with freeCount := s.freeCount + 1 } : State).tick) ∧
      (work ≠ [] → step s = .next { s with pending := posted, freeCount := s.freeCount + 1 })) ∧
  (∀ (s : State) i,
    (i ∈ s.dueEvents ↔ (i = .secondBoundary ∧ s.secondDue = true) ∨ (i = .slotBoundary ∧ s.slotDue = true) ∨
      (i = .referenceLost ∧ s.time.refTimer = some 0) ∨ (∃ l, i = .linkTimeout l ∧ (s.link l).timer = some 0) ∨
      ∃ k r, i = .returnLimitExpiry k ∧ (k, r) ∈ s.insertions ∧ r.timer = some 0) ∧
    (i ∈ s.waiting ↔ (∃ l, i = .cellTake l ∧ (s.link l).handOn ≠ []) ∨ (i = .releaseComputation ∧ s.toRelease ≠ []) ∨
      (i = .timingCell ∧ s.toTiming ≠ []) ∨ (i = .cueTake ∧ s.toCue ≠ []) ∨ s.control.reply = .taken i ∨
      (i = .replyMadeReady ∧ ∃ kind tag code fields, s.control.reply = .handled kind tag code fields))) ∧
  ∀ (s : State), let t := s.tick
    t = { s with
      time := t.time, linkA := t.linkA, linkB := t.linkB, insertions := t.insertions, output := t.output
      secondDue := t.secondDue, slotDue := t.slotDue, freeCount := t.freeCount } ∧
    (s.time.tick + 1 < 10000000 → t.time.tick = s.time.tick + 1 ∧
      (t.slotDue = true ↔ (s.time.tick + 1) % s.site.period = 0) ∧ t.secondDue = s.secondDue) ∧
    (10000000 ≤ s.time.tick + 1 → t.time.tick = s.time.tick ∧ t.secondDue = true ∧ t.slotDue = true) ∧
    t.time = { s.time with
      tick := t.time.tick
      interval := if s.time.refEdge then min (s.time.interval + 1) 4294967295 else s.time.interval
      refTimer := s.time.refTimer.map (fun n => n - 1) } ∧
    (∀ l, t.link l = { s.link l with timer := (s.link l).timer.map (fun n => n - 1) }) ∧
    (∀ k, t.insertions.get k = (s.insertions.get k).map (fun r => { r with timer := r.timer.map (fun n => n - 1) })) ∧
    (∀ b rest, s.output.rest = b :: rest →
      t.output = { s.output with rest := rest, data := b, strobe := false, mark := false }) ∧
    (s.output.rest = [] → t.output.rest = [] ∧ t.output.valid = false ∧ t.output.strobe = false ∧
      t.output.mark = false ∧ t.output.permit = s.output.permit ∧ (s.site.output = false → t.output.data = 0))

/-- SITE.CONFIG (R114, R115, R77): with P unchanged every field takes its value, the offset and Dn in force follow while
their source is CONFIGURED, and the permit falls at once where its condition fails; a change of P with output or an
insertion active is refused with BUSY, and an accepted one clears the ring and every anchor; the plan, the carousel and
the arbiter stay as they are; a field outside its range is refused with RANGE. The ranges are R114's; that the first value
of ON / OFF is 0 is the model's reading (log entry 17). That the current slot keeps its place and its number until the
next boundary after a change of P is the model's choice (log entry 31, DESIGN CHOICE). -/
def Obligations.SiteConfig : Prop :=
  ∀ tag b (s : State), s.mayTake (.siteConfig tag b) →
    let inRange : Prop := b.zone.toNat ≤ 15 ∧
      b.period.toNat ∈ [250, 320, 400, 500, 625, 640, 800, 1000, 1250, 1600, 2000] ∧
      -5000000 ≤ b.offset.toInt ∧ b.offset.toInt ≤ 5000000 ∧ b.latency.toNat ≤ 2000000 ∧ b.dn0.toNat ≤ 9999999 ∧
      1000000 ≤ b.holdMax.toNat ∧ b.holdMax.toNat ≤ 15000000 ∧ b.outputEnable.toNat ≤ 1 ∧ b.feedLossMute.toNat ≤ 1 ∧
      1 ≤ b.linkTimeout.toNat ∧ b.linkTimeout.toNat ≤ 1000
    let new : Machine.SiteConfig :=
      { siteId := b.siteId.toNat, zone := b.zone.toNat, period := b.period.toNat, offset := b.offset.toInt
        latency := b.latency.toNat, dn0 := b.dn0.toNat, holdMax := b.holdMax.toNat
        output := decide (b.outputEnable = 0#8), mute := decide (b.feedLossMute = 0#8)
        linkTimeout := b.linkTimeout.toNat }
    (¬inRange → exec (.siteConfig tag b) s = .next (s.refusalWaits 0x0401#16 tag .range)) ∧
    (inRange → new.period = s.site.period ∨
      (s.site.output = false ∧ new.output = false ∧ ∀ j r, (j, r) ∈ s.insertions → r.state = .done) →
      ∃ (t : State), exec (.siteConfig tag b) s = .next (t.okWaits 0x0401#16 tag []) ∧ t.site = new ∧
        t.release.offset = (if s.release.offsetSource = .configured then new.offset else s.release.offset) ∧
        t.release.dn = (if s.release.dnSource = .configured then new.dn0 else s.release.dn) ∧
        t.output.permit = (s.output.permit && t.permitCondition) ∧ t.time = s.time ∧ t.streams = s.streams ∧
        t.insertions = s.insertions ∧ t.assembler = s.assembler ∧
        (∀ g, s.assembler.slotNumber = some g → t.slotNumber = s.slotNumber) ∧
        (new.period = s.site.period → t.ring = s.ring ∧ t.services = s.services) ∧
        (new.period ≠ s.site.period → t.ring = [] ∧ ∀ k x, t.services.get k = some x → x.anchor = none)) ∧
    (inRange → new.period ≠ s.site.period →
      s.site.output = true ∨ new.output = true ∨ (∃ j r, (j, r) ∈ s.insertions ∧ r.state ≠ .done) →
      exec (.siteConfig tag b) s = .next (s.refusalWaits 0x0401#16 tag .busy))

/-- PLAN.WRITE (R106): a bank, an entry, a last position or a length outside its range is refused with RANGE; of the
standby bank while no swap is armed, the named entries and the length are replaced and the other entries stay; the active
bank is refused with ACTIVE_BANK, and an armed swap with PENDING.
PLAN.SWAP (R107), its four checks in order and its acceptance; PLAN.CANCEL (R108); SITECELL.SET (R110). -/
def Obligations.PlanRequests : Prop :=
  (∀ tag b (s : State), b.entries.length ≤ 1592 → s.mayTake (.planWrite tag b) →
     let inRange : Prop := b.bank.toNat ≤ 1 ∧ (∀ e ∈ b.entries, e.toNat ≤ 2) ∧ b.first.toNat + b.entries.length ≤ 1024 ∧
       (b.lengthPresent = 0#8 ∨ (b.lengthPresent = 1#8 ∧ 1 ≤ b.length.toNat ∧ b.length.toNat ≤ 1024))
     let bank : Bool := decide (b.bank = 1#8)
     let entries : List PlanEntry :=
       b.entries.map (fun e => if e = 0#8 then .null else if e = 1#8 then .site else .spare)
     let length : Option Nat := if b.lengthPresent = 1#8 then some b.length.toNat else none
     (¬inRange → exec (.planWrite tag b) s = .next (s.refusalWaits 0x0403#16 tag .range)) ∧
     (inRange → bank = s.assembler.activeOne →
       exec (.planWrite tag b) s = .next (s.refusalWaits 0x0403#16 tag .activeBank)) ∧
     (inRange → bank ≠ s.assembler.activeOne → s.assembler.armedSwap ≠ none →
       exec (.planWrite tag b) s = .next (s.refusalWaits 0x0403#16 tag .pending)) ∧
     (inRange → bank ≠ s.assembler.activeOne → s.assembler.armedSwap = none → ((s.assembler.bank bank).entries.wf = true) →
       ∃ a, exec (.planWrite tag b) s = .next (({ s with assembler := a } : State).okWaits 0x0403#16 tag []) ∧
         a.bank (!bank) = s.assembler.bank (!bank) ∧
         (a.bank bank).length = length.getD (s.assembler.bank bank).length ∧
         (∀ i, (a.bank bank).entry i =
           (if b.first.toNat ≤ i ∧ i < b.first.toNat + entries.length then
             entries.getD (i - b.first.toNat) .null else (s.assembler.bank bank).entry i)) ∧
         a.pointer = s.assembler.pointer ∧ a.carousel = s.assembler.carousel ∧ a.activeOne = s.assembler.activeOne)) ∧
  (∀ tag S (s : State), s.mayTake (.planSwapRequest tag S) →
    exec (.planSwapRequest tag S) s = .next (
      if s.assembler.armedSwap ≠ none then s.refusalWaits 0x0404#16 tag .pending
      else if s.time.epochKnown = false then s.refusalWaits 0x0404#16 tag .untimed
      else if (S - s.time.second).toInt < 1 then s.refusalWaits 0x0404#16 tag .late
      else if 3600 < (S - s.time.second).toInt then s.refusalWaits 0x0404#16 tag .range
      else ({ s with assembler := { s.assembler with armedSwap := some S } } : State).okWaits 0x0404#16 tag [])) ∧
  (∀ tag (s : State), s.mayTake (.planCancel tag) →
    exec (.planCancel tag) s = .next (({ s with assembler := { s.assembler with armedSwap := none } } : State).okWaits
      0x0405#16 tag [if s.assembler.armedSwap = none then 0 else 1])) ∧
  ∀ tag cells (s : State), cells.length ≤ 8 → (∀ c ∈ cells, c.length = 184) → s.mayTake (.sitecellSet tag cells) →
    exec (.sitecellSet tag cells) s = .next (({ s with assembler := { s.assembler with
      carousel := cells, pointer := 0 } } : State).okWaits 0x0407#16 tag [])

/-- The armed swap at a second boundary (R109): it waits while its second lies ahead; else the banks exchange roles, keep
their contents, the swap is disarmed, and PLAN_SWAP is raised, LATE when its second has passed. -/
def Obligations.PlanSwapAtBoundary : Prop :=
  ∀ (s : State) S, s.secondDue = true → s.heldNotices = none → s.time.pendingSet = none → s.time.stepState ≠ .holdover →
    s.assembler.armedSwap = some S → s.control.notices.length < 64 →
    ∃ (t : State), exec .secondBoundary s = .next t ∧ t.time.second = s.time.second + 1 ∧
      ((s.time.second + 1 - S).toInt < 0 → t.assembler = s.assembler ∧ t.control = s.control) ∧
      (0 ≤ (s.time.second + 1 - S).toInt →
        t.assembler = { s.assembler with activeOne := !s.assembler.activeOne, armedSwap := none } ∧
        ∃ n, t.control = { s.control with notices := s.control.notices ++ [n] } ∧
          n.detail = .planSwap (!s.assembler.activeOne) S (s.time.second + 1)
            (decide (0 < (s.time.second + 1 - S).toInt)))

/-! ## Clips and reels (07) -/

/-- CLIP.WRITE accepted (R123, R124): the records stand in the extent from the written count on, in order, every other cell
of the clip area reads as before, and the written count and last due offset follow; the highest component is the greater of
its previous value, if any, and the largest component of the request.
The order of CLIP.WRITE's refusals (R123): RANGE for a count or a component, STATE, then RANGE for a due offset outside the
clip, then ORDER for another first index or for due offsets that fall, then FULL. -/
def Obligations.ClipWrite : Prop :=
  let inRange (bodies : List RecordBody) : Prop := ∀ r ∈ bodies, r.component.toNat ≤ 3
  let stored (bodies : List RecordBody) : List ClipRecord := bodies.map (fun r =>
    { component := r.component.toNat, due := r.due.toNat, clock := r.flags.getLsbD 7, start := r.flags.getLsbD 6
      stamped := r.flags.getLsbD 5, payload := r.payload })
  let inOrder (last : Option Nat) (records : List ClipRecord) : Prop :=
    (∀ i a b, records[i]? = some a → records[i + 1]? = some b → a.due ≤ b.due) ∧
      ∀ l r, last = some l → records.head? = some r → l ≤ r.due
  (∀ tag clip first bodies (s : State), bodies.all RecordBody.wellFormed = true → bodies.length ≤ 8 →
    s.mayTake (.clipWrite tag clip first bodies) → ¬inRange bodies ∨ bodies = [] →
    exec (.clipWrite tag clip first bodies) s = .next (s.refusalWaits 0x0502#16 tag .range)) ∧
  (∀ tag clip first bodies (s : State) records e, bodies.all RecordBody.wellFormed = true →
     inRange bodies → stored bodies = records → 1 ≤ records.length → records.length ≤ 8 →
     s.mayTake (.clipWrite tag clip first bodies) → s.clips.get clip.toNat = some e → e.ready = false →
     (∀ r ∈ records, r.due < e.duration) → first.toNat = e.written → inOrder e.lastDue records →
     e.written + records.length ≤ e.capacity →
     ∃ (t : State) (e' : _), exec (.clipWrite tag clip first bodies) s = .next (t.okWaits 0x0502#16 tag []) ∧
       t = { s with clips := s.clips.put clip.toNat e', clipCells := t.clipCells } ∧
       e'.written = e.written + records.length ∧ e'.ready = false ∧ e'.base = e.base ∧ e'.capacity = e.capacity ∧
       e'.duration = e.duration ∧ e'.clock = e.clock ∧ e'.period = e.period ∧ e'.pins = e.pins ∧
       (∀ r, records.getLast? = some r → e'.lastDue = some r.due) ∧
       (∃ top, e'.highest = some top ∧ (∀ r ∈ records, r.component ≤ top) ∧ (∀ old, e.highest = some old → old ≤ top) ∧
         ((∃ r ∈ records, r.component = top) ∨ e.highest = some top)) ∧
       (∀ i r, records[i]? = some r → t.clipRecord (e.base + e.written + i) = r) ∧
       ∀ n, n < e.base + e.written ∨ e.base + e.written + records.length ≤ n → t.clipRecord n = s.clipRecord n) ∧
  ∀ tag clip first bodies (s : State) records, bodies.all RecordBody.wellFormed = true →
    inRange bodies → stored bodies = records → 1 ≤ records.length → records.length ≤ 8 →
    s.mayTake (.clipWrite tag clip first bodies) →
    (s.clips.get clip.toNat = none ∨ (∃ e, s.clips.get clip.toNat = some e ∧ e.ready = true) →
      exec (.clipWrite tag clip first bodies) s = .next (s.refusalWaits 0x0502#16 tag .state)) ∧
    ∀ e, s.clips.get clip.toNat = some e → e.ready = false →
      ((∃ r ∈ records, e.duration ≤ r.due) →
        exec (.clipWrite tag clip first bodies) s = .next (s.refusalWaits 0x0502#16 tag .range)) ∧
      ((∀ r ∈ records, r.due < e.duration) → first.toNat ≠ e.written ∨ ¬inOrder e.lastDue records →
        exec (.clipWrite tag clip first bodies) s = .next (s.refusalWaits 0x0502#16 tag .order)) ∧
      ((∀ r ∈ records, r.due < e.duration) → first.toNat = e.written → inOrder e.lastDue records →
        e.capacity < e.written + records.length →
        exec (.clipWrite tag clip first bodies) s = .next (s.refusalWaits 0x0502#16 tag .full))

/-- CLIP.DEFINE (R122, R120): BUSY when the clip is not EMPTY; OVERLAP when the extent shares a cell with a clip that is not
EMPTY; else the clip is OPEN with nothing written.
CLIP.CLOSE (R125): STATE unless OPEN, EMPTY_CLIP with nothing written, else READY with every field kept; CLIP.DELETE
(R126): IN_USE while pinned, else EMPTY, with the records left in cell memory. -/
def Obligations.ClipDefineCloseDelete : Prop :=
  (∀ tag b (s : State), s.mayTake (.clipDefine tag b) →
    4194303 < b.base.toNat ∨ b.capacity.toNat = 0 ∨ 4194304 < b.base.toNat + b.capacity.toNat ∨ b.duration.toNat = 0 ∨
      b.period.toNat ∉ Config.slotPeriods →
    exec (.clipDefine tag b) s = .next (s.refusalWaits 0x0501#16 tag .range)) ∧
  (∀ tag b (s : State), b.base.toNat ≤ 4194303 → 1 ≤ b.capacity.toNat → b.base.toNat + b.capacity.toNat ≤ 4194304 →
     1 ≤ b.duration.toNat → b.period.toNat ∈ Config.slotPeriods → s.mayTake (.clipDefine tag b) →
     (s.clips.get b.clip.toNat ≠ none → exec (.clipDefine tag b) s = .next (s.refusalWaits 0x0501#16 tag .busy)) ∧
     (s.clips.get b.clip.toNat = none →
       (∃ j e, (j, e) ∈ s.clips ∧ b.base.toNat < e.base + e.capacity ∧ e.base < b.base.toNat + b.capacity.toNat) →
       exec (.clipDefine tag b) s = .next (s.refusalWaits 0x0501#16 tag .overlap)) ∧
     (s.clips.get b.clip.toNat = none →
       (∀ j e, (j, e) ∈ s.clips → e.base + e.capacity ≤ b.base.toNat ∨ b.base.toNat + b.capacity.toNat ≤ e.base) →
       exec (.clipDefine tag b) s = .next (({ s with
         clips := s.clips.put b.clip.toNat
           { ready := false, base := b.base.toNat, capacity := b.capacity.toNat, duration := b.duration.toNat
             clock := b.clock, period := b.period.toNat, written := 0, lastDue := none, highest := none
             pins := 0 } } : State).okWaits 0x0501#16 tag []))) ∧
  ∀ tag clip (s : State),
    (s.mayTake (.clipClose tag clip) →
      (s.clips.get clip.toNat = none → exec (.clipClose tag clip) s = .next (s.refusalWaits 0x0503#16 tag .state)) ∧
      ∀ e, s.clips.get clip.toNat = some e →
        exec (.clipClose tag clip) s = .next (
          if e.ready = true then s.refusalWaits 0x0503#16 tag .state
          else if e.written = 0 then s.refusalWaits 0x0503#16 tag .emptyClip
          else ({ s with clips := s.clips.put clip.toNat { e with ready := true } } : State).okWaits 0x0503#16 tag [])) ∧
    (s.mayTake (.clipDelete tag clip) →
      ((∃ e, s.clips.get clip.toNat = some e ∧ e.pins ≠ 0) →
        exec (.clipDelete tag clip) s = .next (s.refusalWaits 0x0504#16 tag .inUse)) ∧
      ((∀ e, s.clips.get clip.toNat = some e → e.pins = 0) →
        exec (.clipDelete tag clip) s =
          .next (({ s with clips := s.clips.del clip.toNat } : State).okWaits 0x0504#16 tag [])))

/-- REEL.SET (R130, R131), its checks in order: RANGE for the reel index, the step count and the kind of each step; BALANCE
unless the steps are balanced, DEPTH when a step has a depth above 4 (R129), EMPTY_LOOP when a LOOP body holds no PLAY and no
HOLD step, IN_USE; an accepted one replaces the reel, and no step makes it empty. The three bytes of a step are the model's
reading (log entry 17). -/
def Obligations.ReelSet : Prop :=
  ∀ tag reel bodies (s : State), bodies.length ≤ 255 → s.mayTake (.reelSet tag reel bodies) →
    let inRange : Prop := reel.toNat ≤ 31 ∧ bodies.length ≤ 24 ∧ ∀ b ∈ bodies, b.kind.toNat ≤ 3
    let steps : List ReelStep := bodies.map (fun b => if b.kind = 0#8 then .play b.clip.toNat
      else if b.kind = 1#8 then .loop b.count.toNat else if b.kind = 2#8 then .next else .hold)
    let shallow : Prop := ∀ i, stepDepth steps i ≤ 4
    (¬inRange → exec (.reelSet tag reel bodies) s = .next (s.refusalWaits 0x0506#16 tag .range)) ∧
    (inRange → ¬reelBalanced steps →
      exec (.reelSet tag reel bodies) s = .next (s.refusalWaits 0x0506#16 tag .balance)) ∧
    (inRange → reelBalanced steps → ¬shallow →
      exec (.reelSet tag reel bodies) s = .next (s.refusalWaits 0x0506#16 tag .depth)) ∧
    (inRange → reelBalanced steps → shallow → ¬bodiesHold steps →
      exec (.reelSet tag reel bodies) s = .next (s.refusalWaits 0x0506#16 tag .emptyLoop)) ∧
    (inRange → reelBalanced steps → shallow → bodiesHold steps → (∃ r, s.reels.get reel.toNat = some r ∧ r.uses ≠ 0) →
      exec (.reelSet tag reel bodies) s = .next (s.refusalWaits 0x0506#16 tag .inUse)) ∧
    (inRange → reelBalanced steps → shallow → bodiesHold steps → (∀ r, s.reels.get reel.toNat = some r → r.uses = 0) →
      exec (.reelSet tag reel bodies) s = .next (({ s with
        reels := if steps = [] then s.reels.del reel.toNat
          else s.reels.put reel.toNat { steps := steps, uses := 0 } } : State).okWaits 0x0506#16 tag []))

/-! ## Local insertion (08, 09) -/

/-- INSERT.ARM (R141, R142, R133): its ranges and its checks in order, and its acceptance with a CUE trigger (the record is ARMED) and with
an AT trigger (PRIMED on the lowest free channel, its service PRIMED); the use and pin counts rise by one. That the distance
of an AT trigger is taken from site time at the handling is the model's choice (log entry 33). -/
def Obligations.InsertArm : Prop :=
  ∀ tag b (s : State), s.mayTake (.insertArm tag b) →
    let inRange : Prop := b.record.toNat ≤ 15 ∧ b.service.toNat ≤ 63 ∧ b.reel.toNat ≤ 31 ∧
      (b.trigger = 0#8 ∨ (b.trigger = 1#8 ∧ b.slot.toNat < 10000000 / s.site.period)) ∧
      (b.endRule = 0#8 ∨ b.endRule = 1#8 ∨ (b.endRule = 2#8 ∧ 1 ≤ b.length.toNat)) ∧
      (b.limitPresent = 0#8 ∨ (b.limitPresent = 1#8 ∧ 1000000 ≤ b.limit.toNat ∧ b.limit.toNat ≤ 50000000))
    (¬inRange → exec (.insertArm tag b) s = .next (s.refusalWaits 0x0601#16 tag .range)) ∧
    (inRange →
      let steps := s.reelSteps b.reel.toNat
      let record : Insertion :=
        { state := .armed, result := none, service := b.service.toNat
          trigger := if b.trigger = 0#8 then .cue b.cueId else .atSlot b.second b.slot.toNat, matched := none
          reel := b.reel.toNat
          endRule := if b.endRule = 0#8 then .reel else if b.endRule = 1#8 then .cue else .fixed b.length.toNat
          returnLimit := if b.limitPresent = 1#8 then b.limit.toNat else 20000000, splice := none, channel := none
          breakSlot := none, brk := none, startSlot := none, endSlot := none, localCells := 0, nulls := 0, timer := none }
      let held (t : State) : Prop :=
        (∀ k, t.reels.get k = (s.reels.get k).map (fun r =>
          if k = b.reel.toNat then { r with uses := r.uses + 1 } else r)) ∧
        ∀ k, t.clips.get k = (s.clips.get k).map (fun e => if .play k ∈ steps then { e with pins := e.pins + 1 } else e)
      let busy : Prop := ∃ r, s.insertions.get b.record.toNat = some r ∧ r.state ≠ .done
      (busy → exec (.insertArm tag b) s = .next (s.refusalWaits 0x0601#16 tag .busy)) ∧
      (¬busy → s.services.get b.service.toNat = none →
        exec (.insertArm tag b) s = .next (s.refusalWaits 0x0601#16 tag .noService)) ∧
      ∀ x, ¬busy → s.services.get b.service.toNat = some x →
        let ready : Prop := steps ≠ [] ∧ ∀ c, .play c ∈ steps → ∃ e, s.clips.get c = some e ∧ e.ready = true
        let fits : Prop := ∀ c e, .play c ∈ steps → s.clips.get c = some e →
          e.period = s.site.period ∧ e.highest.getD 0 < x.components.length
        (¬ready → exec (.insertArm tag b) s = .next (s.refusalWaits 0x0601#16 tag .notReady)) ∧
        (ready → ¬fits → exec (.insertArm tag b) s = .next (s.refusalWaits 0x0601#16 tag .mismatch)) ∧
        (b.trigger = 0#8 → ready → fits →
          ∃ (t : State) (f : Bytes), exec (.insertArm tag b) s = .next (t.okWaits 0x0601#16 tag f) ∧
            t = { s with insertions := s.insertions.put b.record.toNat record, reels := t.reels, clips := t.clips } ∧
            held t) ∧
        (b.trigger = 1#8 → ready → fits →
          let second := b.second
          let slot := b.slot.toNat
          let distance : Int := (second - s.time.second).toInt * 10000000 + slot * s.site.period - s.time.tick
          (s.time.epochKnown = false → exec (.insertArm tag b) s = .next (s.refusalWaits 0x0601#16 tag .untimed)) ∧
          (s.time.epochKnown = true → distance < 2 * s.site.period →
            exec (.insertArm tag b) s = .next (s.refusalWaits 0x0601#16 tag .late)) ∧
          (s.time.epochKnown = true → 2 * s.site.period ≤ distance → 300000000 < distance →
            exec (.insertArm tag b) s = .next (s.refusalWaits 0x0601#16 tag .range)) ∧
          (s.time.epochKnown = true → 2 * s.site.period ≤ distance → distance ≤ 300000000 → x.splice ≠ .network →
            exec (.insertArm tag b) s = .next (s.refusalWaits 0x0601#16 tag .conflict)) ∧
          (s.time.epochKnown = true → 2 * s.site.period ≤ distance → distance ≤ 300000000 → x.splice = .network →
            (∀ c, c < 8 → s.channels.get c ≠ none) →
            exec (.insertArm tag b) s = .next (s.refusalWaits 0x0601#16 tag .noChannel)) ∧
          ∀ ch, s.time.epochKnown = true → 2 * s.site.period ≤ distance → distance ≤ 300000000 →
            x.splice = .network → ch < 8 → s.channels.get ch = none → (∀ c, c < ch → s.channels.get c ≠ none) →
            ∃ (t : State) (f : Bytes), exec (.insertArm tag b) s = .next (t.okWaits 0x0601#16 tag f) ∧
              t = { s with
                insertions := s.insertions.put b.record.toNat { record with
                  state := .primed, splice := some { second := second, slot := slot }, channel := some ch
                  breakSlot := if b.endRule = 2#8 then some (({ second := second, slot := slot } : Pos).add s.n b.length.toNat) else none }
                channels := s.channels.put ch { record := b.record.toNat, play := none }
                services := s.services.put b.service.toNat { x with splice := .primed, active := some b.record.toNat }
                reels := t.reels
                clips := t.clips } ∧
              held t))

/-- INSERT.RETURN of a LOCAL record whose break has not been taken (R144, R158, R159): the break is taken with cause HOST,
the loop stack is emptied and the return-limit timer starts; with no play in progress, or at the end of a clean exit, the
record and its service are RETURNING at once, else the exit is pending; the reply gives the pending result, COMPLETE
exactly at END, and whether the record became RETURNING. Any other record is refused with STATE. -/
def Obligations.InsertReturn : Prop :=
  ∀ tag record (s : State), s.mayTake (.insertReturn tag record) →
    (15 < record.toNat → exec (.insertReturn tag record) s = .next (s.refusalWaits 0x0603#16 tag .range)) ∧
    (record.toNat ≤ 15 → (∀ r, s.insertions.get record.toNat = some r → r.state ≠ .onLocal ∨ r.brk ≠ none) →
      exec (.insertReturn tag record) s = .next (s.refusalWaits 0x0603#16 tag .state)) ∧
    ∀ r c ch p, record.toNat ≤ 15 → s.insertions.get record.toNat = some r → r.state = .onLocal → r.brk = none →
      r.channel = some c → s.channels.get c = some ch → ch.play = some p → s.control.notices.length < 64 →
      let result := if p.clip = none ∧ (s.reelSteps r.reel).length ≤ p.cursor then Result.complete else Result.cutShort
      let r' : Insertion := { r with brk := some (.host, result), timer := some r.returnLimit }
      let ends : Prop := p.clip = none ∨ ∃ cl e, p.clip = some cl ∧ s.clips.get cl = some e ∧
        (e.written ≤ p.nextCell ∨ (s.clipRecord (e.base + p.nextCell)).start = true)
      let goesOn : Prop := ∃ cl e, p.clip = some cl ∧ s.clips.get cl = some e ∧ p.nextCell < e.written ∧
        (s.clipRecord (e.base + p.nextCell)).start = false
      (ends → ∀ x, s.services.get r.service = some x →
        exec (.insertReturn tag record) s = .next (({ s with
          insertions := s.insertions.put record.toNat { r' with state := .returning }
          channels := s.channels.put c { ch with play := some { p with stack := [], clip := none, exitPending := false } }
          services := s.services.put r.service { x with splice := .returning, active := some record.toNat }
          control := { s.control with notices := s.noticesWith (.insert record.toNat r.service .onLocal .returning
            (.brk .host) r.matched s.currentNumber) } } : State).okWaits 0x0603#16 tag
              [if result = .complete then 0 else 1, 1])) ∧
      (goesOn → exec (.insertReturn tag record) s = .next (({ s with
          insertions := s.insertions.put record.toNat r'
          channels := s.channels.put c { ch with play := some { p with stack := [], exitPending := true } } } : State).okWaits
            0x0603#16 tag [1, 0]))

/-- INSERT.CANCEL (R143, R133): of an ARMED or a PRIMED record, which is DONE with ABORTED_HOST and the current position as
end slot, a PRIMED one with its channel free and its service in NETWORK; no notice; any other is refused with STATE.
INSERT.CLEAR (R145): a DONE record becomes IDLE; any other is refused with STATE. -/
def Obligations.InsertCancelAndClear : Prop :=
  (∀ tag record (s : State), s.mayTake (.insertCancel tag record) →
     (15 < record.toNat → exec (.insertCancel tag record) s = .next (s.refusalWaits 0x0602#16 tag .range)) ∧
     (record.toNat ≤ 15 → (s.insertions.get record.toNat = none ∨
       (∃ r, s.insertions.get record.toNat = some r ∧ r.state ≠ .armed ∧ r.state ≠ .primed)) →
       exec (.insertCancel tag record) s = .next (s.refusalWaits 0x0602#16 tag .state)) ∧
     ∀ r, record.toNat ≤ 15 → s.insertions.get record.toNat = some r → r.state = .armed ∨ r.state = .primed →
       ∃ (t : State), exec (.insertCancel tag record) s = .next (t.okWaits 0x0602#16 tag []) ∧
         t = { s with
           insertions := s.insertions.put record.toNat { r with
             state := .done, result := some .abortedHost, endSlot := s.currentPos, channel := none, timer := none }
           services := t.services
           channels := t.channels
           reels := t.reels
           clips := t.clips } ∧
         (r.state = .armed → t.services = s.services ∧ t.channels = s.channels) ∧
         (∀ c, r.state = .primed → r.channel = some c → t.channels = s.channels.del c) ∧
         (∀ x, r.state = .primed → s.services.get r.service = some x →
           t.services = s.services.put r.service { x with splice := .network, active := none }) ∧
         s.releases r.reel t) ∧
  ∀ tag record (s : State), s.mayTake (.insertClear tag record) →
    (15 < record.toNat → exec (.insertClear tag record) s = .next (s.refusalWaits 0x0604#16 tag .range)) ∧
    (record.toNat ≤ 15 → (∀ r, s.insertions.get record.toNat = some r → r.state ≠ .done) →
      exec (.insertClear tag record) s = .next (s.refusalWaits 0x0604#16 tag .state)) ∧
    ∀ r, record.toNat ≤ 15 → s.insertions.get record.toNat = some r → r.state = .done →
      exec (.insertClear tag record) s =
        .next (({ s with insertions := s.insertions.del record.toNat } : State).okWaits 0x0604#16 tag [])

/-- A cue whose type is none of OUT, IN and CANCEL, whose splice stamp lies outside the stamp cycle or whose id is ANY is
ignored with reason FORMAT; one that does not address the site's zone with reason ZONE; one that is not timed with reason
UNTIMED: one CUE_IGNORED notice, and no other effect (R146, R203). -/
def Obligations.CueIgnored : Prop :=
  ∀ h rest (s : State) k p, s.toCue = h :: rest → h.service = some k → p = h.item.cell.drop 4 →
    s.control.notices.length < 64 →
    let id := BitVec.ofNat 32 (fieldNat p 0 4)
    let formed := (byteAt p 12 = 1 ∨ byteAt p 12 = 2 ∨ byteAt p 12 = 3) ∧ fieldNat p 4 4 < 640000000 ∧
      id ≠ 4294967295#32
    let ignored (reason : CueReason) : State := { s with
      toCue := rest
      control := { s.control with
        notices := s.noticesWith (.cueIgnored k id (byteAt p 12) reason none) } }
    (¬formed → exec .cueTake s = .next (ignored .format)) ∧
    (formed → (BitVec.ofNat 16 (fieldNat p 13 2)).getLsbD s.site.zone = false →
      exec .cueTake s = .next (ignored .zone)) ∧
    (formed → (BitVec.ofNat 16 (fieldNat p 13 2)).getLsbD s.site.zone = true →
      h.item.arrivalStamp = none ∨ s.time.epochKnown = false → exec .cueTake s = .next (ignored .untimed))

/-- An OUT cue that is not the held record's own (R146, R148). It is matched to the lowest-numbered ARMED record of its
service whose trigger is its id or ANY, and without one it has no effect. While the service is held, it is ignored with
reason BUSY; with a lead below 2P, or its slot passed, the record is DONE with ABORTED_LATE_CUE; with a lead above
300,000,000 ticks it is ignored with reason FAR; with every channel held the record is DONE with ABORTED_NO_CHANNEL. A
record so ended releases its reel and clips (R133), and one INSERT notice gives its result. Else the record is PRIMED at
the cue's slot on the lowest free channel (R151), its service is PRIMED, and an INSERT notice with cause OUT_CUE is raised.
The record matched waits for the cue, and none of a lower index does; where none is matched none waits; the service is held
where a record of it is PRIMED, LOCAL or RETURNING; the channel is free, and none below it is. -/
def Obligations.OutCuePrimes : Prop :=
  ∀ h rest (s : State) k a c, s.toCue = h :: rest → h.service = some k → h.item.arrivalStamp = some a →
    s.time.epochKnown = true → byteAt (h.item.cell.drop 4) 12 = 1 →
    fieldNat (h.item.cell.drop 4) 4 4 < 640000000 →
    BitVec.ofNat 32 (fieldNat (h.item.cell.drop 4) 0 4) ≠ 4294967295#32 →
    (BitVec.ofNat 16 (fieldNat (h.item.cell.drop 4) 13 2)).getLsbD s.site.zone = true →
    c.service = k → c.id = BitVec.ofNat 32 (fieldNat (h.item.cell.drop 4) 0 4) → c.kind = .out → c.kindByte = 1 →
    c.length = fieldNat (h.item.cell.drop 4) 8 4 →
    c.lead = stampDiff (s.releaseSlot (fieldNat (h.item.cell.drop 4) 4 4) * s.site.period) a →
    (∀ cur, s.currentPos = some cur →
      c.slot = s.nearestPos (s.releaseSlot (fieldNat (h.item.cell.drop 4) 4 4)) cur) →
    s.control.notices.length < 64 →
    let awaits (r : Insertion) : Prop :=
      r.state = .armed ∧ r.service = k ∧ (r.trigger = .cue c.id ∨ r.trigger = .cue 4294967295#32)
    let holding (r : Insertion) : Prop :=
      (r.state = .primed ∨ r.state = .onLocal ∨ r.state = .returning) ∧ r.service = k
    let ignored (reason : CueReason) (i : Nat) : State := { s with
      toCue := rest
      control := { s.control with notices := s.noticesWith (.cueIgnored k c.id 1 reason (some i)) } }
    let ends (i : Nat) (r : Insertion) (result : Result) : Prop :=
      ∃ (t : State), exec .cueTake s = .next t ∧
        t = { s with
          toCue := rest
          insertions := s.insertions.put i { r with
            state := .done, result := some result, endSlot := s.currentPos, channel := none, timer := none }
          reels := t.reels
          clips := t.clips
          control := { s.control with notices := s.noticesWith (.insert i r.service .armed .done (.result result)
            r.matched s.currentNumber) } } ∧
        s.releases r.reel t
    (s.holder k = none ∨ (∃ j q, s.holder k = some (j, q) ∧ q.matched ≠ some c.id) → s.armedMatch c = none →
      exec .cueTake s = .next { s with toCue := rest }) ∧
    (∀ i r, s.armedMatch c = some (i, r) → (i, r) ∈ s.insertions ∧ awaits r ∧
      (s.insertions.wf = true → ∀ j q, (j, q) ∈ s.insertions → awaits q → i ≤ j)) ∧
    (s.armedMatch c = none → ∀ j q, (j, q) ∈ s.insertions → ¬awaits q) ∧
    (∀ i r, s.holder k = some (i, r) → (i, r) ∈ s.insertions ∧ holding r) ∧
    (s.holder k = none → ∀ j q, (j, q) ∈ s.insertions → ¬holding q) ∧
    (∀ ch, s.freeChannel = some ch → ch < 8 ∧ s.channels.get ch = none ∧ ∀ j, j < ch → s.channels.get j ≠ none) ∧
    (s.freeChannel = none → ∀ j, j < 8 → s.channels.get j ≠ none) ∧
    (∀ cur, s.currentPos = some cur → (s.reachedNow (some c.slot) = true ↔ 0 ≤ Pos.diff s.n cur c.slot)) ∧
    (∀ i r j q, s.armedMatch c = some (i, r) → s.holder k = some (j, q) → q.matched ≠ some c.id →
      exec .cueTake s = .next (ignored .busy i)) ∧
    ∀ i r, s.armedMatch c = some (i, r) → s.holder k = none →
      (c.lead < 2 * s.site.period ∨ s.reachedNow (some c.slot) = true → ends i r .abortedLateCue) ∧
      (2 * (s.site.period : Int) ≤ c.lead → s.reachedNow (some c.slot) = false → 300000000 < c.lead →
        exec .cueTake s = .next (ignored .far i)) ∧
      (2 * (s.site.period : Int) ≤ c.lead → s.reachedNow (some c.slot) = false → c.lead ≤ 300000000 →
        s.freeChannel = none → ends i r .abortedNoChannel) ∧
      ∀ ch, 2 * (s.site.period : Int) ≤ c.lead → s.reachedNow (some c.slot) = false → c.lead ≤ 300000000 →
        s.freeChannel = some ch →
        ∃ (t : State) (r' : _), exec .cueTake s = .next t ∧ t.toCue = rest ∧ t.insertions = s.insertions.put i r' ∧
          r' = { r with state := .primed, matched := some c.id, splice := some c.slot, channel := some ch
                        breakSlot := r'.breakSlot } ∧
          (∀ l, r.endRule = .fixed l → r'.breakSlot = some (c.slot.add s.n l)) ∧
          (r.endRule = .reel ∨ r.endRule = .cue →
            r'.breakSlot = if c.length = 0 then none else some (c.slot.add s.n c.length)) ∧
          t.channels = s.channels.put ch { record := i, play := none } ∧
          (∀ x, s.services.get r.service = some x →
            t.services.get r.service = some { x with splice := .primed, active := some i }) ∧
          t.control.notices = s.noticesWith (.insert i r.service .armed .primed .outCue (some c.id) s.currentNumber) ∧
          t.ring = s.ring ∧ t.reels = s.reels ∧ t.clips = s.clips ∧ t.streams = s.streams

/-- IN, CANCEL and repeated OUT cues at the record that holds their service (R147, R149, R150): an IN cue sets the break
slot of a LOCAL record, unless its slot has been reached; a CANCEL cue takes a PRIMED record back to ARMED; a repeated OUT
moves the splice slot of a PRIMED record, unless its lead is below 2P or above 300,000,000 ticks or its slot has passed,
where it has no effect; a cue whose id is not the record's, or that no record of its service can take, changes nothing.
A cue that passes the three tests of R146 is taken with its cue slot and lead and acts in that way.
An IN cue whose slot has been reached takes the break at once with cause END_RULE and result COMPLETE (R150), and a CANCEL
cue takes the break of a LOCAL record with cause CANCEL_CUE and result CUT_SHORT (R149): with no play in progress, the next
cell a START cell or the last cell given, the record is RETURNING at once; else the exit is pending (R158, R159). -/
def Obligations.CuesAtHeldRecord : Prop :=
  (∀ h rest (s : State) k a kind, s.toCue = h :: rest → h.service = some k → h.item.arrivalStamp = some a →
    s.time.epochKnown = true →
    let p := h.item.cell.drop 4
    let id := BitVec.ofNat 32 (fieldNat p 0 4)
    (byteAt p 12 = 1 ∧ kind = .out) ∨ (byteAt p 12 = 2 ∧ kind = .in) ∨ (byteAt p 12 = 3 ∧ kind = .cancel) →
    fieldNat p 4 4 < 640000000 → id ≠ 4294967295#32 → (BitVec.ofNat 16 (fieldNat p 13 2)).getLsbD s.site.zone = true →
    ∃ cur, s.currentPos = some cur ∧
      let g := s.releaseSlot (fieldNat p 4 4)
      exec .cueTake s = .next (({ s with toCue := rest } : State).actOnCue {
        service := k, id := id, kindByte := byteAt p 12, kind := kind, length := fieldNat p 8 4
        slot := s.nearestPos g cur, lead := stampDiff (g * s.site.period) a })) ∧
  ∀ (c : TimedCue) (s : State) i r, s.holder c.service = some (i, r) →
    (c.kind = .in → r.state = .onLocal → r.brk = none →
      r.matched = some c.id ∨ (∃ q m, r.trigger = .atSlot q m) → r.endRule = .cue ∨ r.endRule = .reel →
      s.reachedNow (some c.slot) = false →
      s.actOnCue c = { s with insertions := s.insertions.put i { r with breakSlot := some c.slot } }) ∧
    (c.kind = .in → (r.state ≠ .onLocal ∨ r.brk ≠ none ∨ (∃ l, r.endRule = .fixed l) ∨
      (r.matched ≠ some c.id ∧ ∃ id, r.trigger = .cue id)) → s.actOnCue c = s) ∧
    (c.kind = .cancel → r.matched ≠ some c.id ∨ r.state = .returning → s.actOnCue c = s) ∧
    (∀ ch x, c.kind = .cancel → r.matched = some c.id → r.state = .primed → r.channel = some ch →
      s.services.get r.service = some x → s.control.notices.length < 64 →
      s.actOnCue c = { s with
        insertions := s.insertions.put i { r with
          state := .armed, splice := none, breakSlot := none, matched := none, channel := none }
        channels := s.channels.del ch
        services := s.services.put r.service { x with splice := .network, active := none }
        control := { s.control with notices := s.noticesWith (.insert i r.service .primed .armed (.brk .cancelCue) none
          s.currentNumber) } }) ∧
    (∀ gS, c.kind = .out → r.matched = some c.id → r.state = .primed → r.splice = some gS →
      2 * (s.site.period : Int) ≤ c.lead → c.lead ≤ 300000000 → s.reachedNow (some c.slot) = false →
      s.actOnCue c = { s with insertions := s.insertions.put i { r with
        splice := some c.slot
        breakSlot := match r.endRule with
          | .fixed l => some (c.slot.add s.n l)
          | _ => if 0 < c.length then some (c.slot.add s.n c.length)
            else r.breakSlot.map (fun old => old.add s.n (Pos.diff s.n c.slot gS)) } }) ∧
    (c.kind = .out → r.matched = some c.id → r.state = .primed →
      c.lead < 2 * s.site.period ∨ 300000000 < c.lead ∨ s.reachedNow (some c.slot) = true → s.actOnCue c = s) ∧
    (c.kind = .out → r.matched = some c.id → r.state = .onLocal ∨ r.state = .returning → s.actOnCue c = s) ∧
    (c.kind = .cancel → r.matched = some c.id → s.insertions.get i = some r → r.state = .onLocal → r.brk ≠ none →
      s.actOnCue c = s) ∧
    ∀ cn ch p x, s.insertions.get i = some r → r.state = .onLocal → r.brk = none → r.channel = some cn →
      s.channels.get cn = some ch → ch.play = some p → s.services.get r.service = some x →
      s.control.notices.length < 64 →
      let ends : Prop := p.clip = none ∨ ∃ cl e, p.clip = some cl ∧ s.clips.get cl = some e ∧
        (e.written ≤ p.nextCell ∨ (s.clipRecord (e.base + p.nextCell)).start = true)
      let goesOn : Prop := ∃ cl e, p.clip = some cl ∧ s.clips.get cl = some e ∧ p.nextCell < e.written ∧
        (s.clipRecord (e.base + p.nextCell)).start = false
      let broken (q : Insertion) (cause : BreakCause) (result : Result) : Prop :=
        (ends → s.actOnCue c = { s with
          insertions := s.insertions.put i { q with
            state := .returning, brk := some (cause, result), timer := some r.returnLimit }
          channels := s.channels.put cn { ch with play := some { p with stack := [], clip := none, exitPending := false } }
          services := s.services.put r.service { x with splice := .returning, active := some i }
          control := { s.control with notices := s.noticesWith (.insert i r.service .onLocal .returning (.brk cause)
            r.matched s.currentNumber) } }) ∧
        (goesOn → s.actOnCue c = { s with
          insertions := s.insertions.put i { q with brk := some (cause, result), timer := some r.returnLimit }
          channels := s.channels.put cn { ch with play := some { p with stack := [], exitPending := true } } })
      (c.kind = .cancel → r.matched = some c.id → broken r .cancelCue .cutShort) ∧
      (c.kind = .in → r.matched = some c.id ∨ (∃ q m, r.trigger = .atSlot q m) → r.endRule = .cue ∨ r.endRule = .reel →
        s.reachedNow (some c.slot) = true → broken { r with breakSlot := some c.slot } .endRule .complete)

/-- The return limit expires (R161, R133, R140): the record is DONE with FORCED_RETURN, its channel is free, its service is
in NETWORK with every component awaiting DISC, its reel and clips are released, and an INSERT notice is raised. -/
def Obligations.ReturnLimitForcesReturn : Prop :=
  ∀ k r c x (s : State), s.insertions.get k = some r → r.timer = some 0 → r.state = .onLocal ∨ r.state = .returning →
    r.channel = some c → s.services.get r.service = some x → s.control.notices.length < 64 →
    ∃ (t : State), exec (.returnLimitExpiry k) s = .next t ∧
      t.insertions = s.insertions.put k { r with
        state := .done, result := some .forcedReturn, endSlot := s.currentPos, channel := none, timer := none } ∧
      t.channels = s.channels.del c ∧
      t.services.get r.service = some { x with
        splice := .network, active := none
        components := x.components.map (fun y => { y with awaitDisc := true }) } ∧
      t.control.notices = s.noticesWith (.insert k r.service r.state .done (.result .forcedReturn) r.matched
        s.currentNumber) ∧
      s.releases r.reel t ∧ t.ring = s.ring ∧ t.output = s.output ∧ t.time = s.time

/-- A walk passes its steps (R153): LOOP pushes a frame, NEXT turns back to the body while rounds are left and else pops the
frame, PLAY, HOLD and END stop it.
A PRIMED record at a slot boundary at which its splice slot is reached (R152, R168 to R171): without a usable anchor it
is DONE with ABORTED_NO_CLOCK, its reel and clips released (R133), and its service in NETWORK; with one it is LOCAL, and its channel walks the reel from step 0:
at a PLAY it plays the clip with the offset from the clip's base clock to the clock predicted for the splice slot; at a HOLD
or at END it stands there, and under REEL the break is taken at once (R153).
A LOCAL record at a slot boundary (R155): a play whose clip end is reached is over; a break slot reached takes the break,
with the exit of R158 and R159; with the break taken and no play in progress the record is RETURNING; a play that ended
without a break walks on, to the next clip at this position (R154, R170, R171), to a stand, or under REEL to the break. Where
none of these holds, nothing changes. -/
def Obligations.RecordAtSlotBoundary : Prop :=
  (∀ steps bound cu (st : List LoopFrame),
    (steps[cu]? = none → walk steps (bound + 1) cu st = (cu, st, .atEnd)) ∧
    (∀ clip, steps[cu]? = some (.play clip) → walk steps (bound + 1) cu st = (cu, st, .play clip)) ∧
    (steps[cu]? = some .hold → walk steps (bound + 1) cu st = (cu, st, .hold)) ∧
    (∀ n, steps[cu]? = some (.loop n) → walk steps (bound + 1) cu st =
      walk steps bound (cu + 1) ({ bodyStart := cu + 1, remaining := if n = 0 then none else some n } :: st)) ∧
    ∀ frame outer, steps[cu]? = some .next → st = frame :: outer →
      (frame.remaining = none → walk steps (bound + 1) cu st = walk steps bound frame.bodyStart st) ∧
      (∀ left, frame.remaining = some left → 1 < left → walk steps (bound + 1) cu st =
        walk steps bound frame.bodyStart ({ frame with remaining := some (left - 1) } :: outer)) ∧
      (∀ left, frame.remaining = some left → left ≤ 1 →
        walk steps (bound + 1) cu st = walk steps bound (cu + 1) outer)) ∧
  ∀ k r c ch x cur (s : State), s.insertions.get k = some r → s.currentPos = some cur → r.channel = some c →
    s.channels.get c = some ch → s.services.get r.service = some x → s.control.notices.length < 63 →
    (∀ gS, r.state = .primed → r.splice = some gS → Pos.diff s.n cur gS < 0 → s.recordBoundary k = s) ∧
    (∀ gS, r.state = .primed → r.splice = some gS → 0 ≤ Pos.diff s.n cur gS →
      (∀ a, x.anchor = some a → 20000000 < s.slotDiff s.currentNumber a.slot * s.site.period) →
      ∃ (t : State), s.recordBoundary k = t ∧ t.channels = s.channels.del c ∧
        t.insertions = s.insertions.put k { r with
          state := .done, result := some .abortedNoClock, endSlot := some cur, channel := none, timer := none } ∧
        t.services = s.services.put r.service { x with splice := .network, active := none } ∧
        t.control.notices = s.noticesWith (.insert k r.service .primed .done (.result .abortedNoClock) r.matched
          s.currentNumber) ∧
        s.releases r.reel t) ∧
    (∀ gS a cu st stop, r.state = .primed → r.splice = some gS → 0 ≤ Pos.diff s.n cur gS → x.anchor = some a →
      s.slotDiff s.currentNumber a.slot * s.site.period ≤ 20000000 →
      walk (s.reelSteps r.reel) 64 0 [] = (cu, st, stop) →
      let clock : Clock := a.clock + BitVec.ofInt 40 (s.slotDiff (gS.number s.n) a.slot * s.site.period)
      let spliced := s.noticesWith (.insert k r.service .primed .onLocal .splice r.matched s.currentNumber)
      ∃ (t : State) (p' : Playback), s.recordBoundary k = t ∧ t.channels = s.channels.put c { ch with play := some p' } ∧
        p'.cursor = cu ∧ p'.clock = clock ∧ p'.exitPending = false ∧ p'.lastLag = none ∧ p'.clipEnd = none ∧
        t.reels = s.reels ∧ t.clips = s.clips ∧ t.ring = s.ring ∧
        (∀ clip e, stop = .play clip → s.clips.get clip = some e →
          p'.stack = st ∧ p'.clip = some clip ∧ p'.nextCell = 0 ∧ p'.clipStart = some gS ∧
            p'.offset = some (clock - e.clock) ∧ p'.lagNoticed = false ∧ p'.started = []) ∧
        (stop = .hold ∨ stop = .atEnd → p'.clip = none ∧ (r.endRule ≠ .reel → p'.stack = st)) ∧
        ((∃ clip, stop = .play clip) ∨ r.endRule ≠ .reel →
          t.insertions = s.insertions.put k { r with state := .onLocal, startSlot := some cur } ∧
          t.services = s.services.put r.service { x with splice := .onLocal, active := some k } ∧
          t.control.notices = spliced) ∧
        (stop = .hold ∨ stop = .atEnd → r.endRule = .reel → r.brk = none →
          p'.stack = [] ∧
          t.insertions = s.insertions.put k { r with
            state := .returning, startSlot := some cur, brk := some (.endRule, .complete)
            timer := some r.returnLimit } ∧
          t.services = s.services.put r.service { x with splice := .returning, active := some k } ∧
          t.control.notices = spliced ++ [s.time.noticeOf (.insert k r.service .onLocal .returning (.brk .endRule)
            r.matched s.currentNumber)])) ∧
    ∀ p, r.state = .onLocal → ch.play = some p →
      let reached (q : Option Pos) : Prop := ∃ g, q = some g ∧ 0 ≤ Pos.diff s.n cur g
      let idle : Prop := p.clip = none ∨ reached p.clipEnd
      let ended : Prop := p.clip ≠ none ∧ reached p.clipEnd
      let endsExit : Prop := ∃ cl e, p.clip = some cl ∧ s.clips.get cl = some e ∧
        (e.written ≤ p.nextCell ∨ (s.clipRecord (e.base + p.nextCell)).start = true)
      let goesOn : Prop := ∃ cl e, p.clip = some cl ∧ s.clips.get cl = some e ∧ p.nextCell < e.written ∧
        (s.clipRecord (e.base + p.nextCell)).start = false
      let returning (q : Insertion) (p' : Playback) (cause : BreakCause) : Prop := s.recordBoundary k = { s with
        insertions := s.insertions.put k { q with state := .returning }
        channels := s.channels.put c { ch with play := some { p' with clip := none, exitPending := false } }
        services := s.services.put r.service { x with splice := .returning, active := some k }
        control := { s.control with notices := s.noticesWith (.insert k r.service .onLocal .returning (.brk cause)
          r.matched s.currentNumber) } }
      let broken : Insertion := { r with brk := some (.endRule, .complete), timer := some r.returnLimit }
      (¬ended → (r.brk = none ∧ ¬reached r.breakSlot) ∨ (r.brk ≠ none ∧ p.clip ≠ none) → s.recordBoundary k = s) ∧
      (r.brk = none → reached r.breakSlot → idle ∨ endsExit → returning broken { p with stack := [] } .endRule) ∧
      (r.brk = none → reached r.breakSlot → ¬ended → goesOn → s.recordBoundary k = { s with
        insertions := s.insertions.put k broken
        channels := s.channels.put c { ch with play := some { p with stack := [], exitPending := true } } }) ∧
      (∀ cause result, r.brk = some (cause, result) → idle → returning r p cause) ∧
      ∀ cu st stop, r.brk = none → ¬reached r.breakSlot → ended →
        walk (s.reelSteps r.reel) 64 (p.cursor + 1) p.stack = (cu, st, stop) →
        (∀ clip e old, stop = .play clip → s.clips.get clip = some e → p.clipStart = some old →
          let clock : Clock := p.clock + BitVec.ofInt 40 (Pos.diff s.n cur old * s.site.period)
          s.recordBoundary k = { s with channels := s.channels.put c { ch with play := some { p with
            cursor := cu, stack := st, clip := some clip, nextCell := 0, clipStart := some cur, clipEnd := none
            clock := clock, offset := some (clock - e.clock), lagNoticed := false, started := [] } } }) ∧
        (stop = .hold ∨ stop = .atEnd → r.endRule ≠ .reel →
          s.recordBoundary k = { s with channels := s.channels.put c { ch with play := some { p with
            cursor := cu, stack := st, clip := none } } }) ∧
        (stop = .hold ∨ stop = .atEnd → r.endRule = .reel →
          returning broken { p with cursor := cu, stack := [] } .endRule)

/-- The due cell of a LOCAL channel (R156, R157): the next cell of its play, once its due position is reached, unless a
pending exit has reached a START cell; and what giving it does: the next cell, the lag, the counts, the clip end after the
clip's last cell (R154), and an INSERT_LAG notice for the first lag of the play above one slot-second.
While an exit is pending, the cell given ends it when the clip's last cell has been given or the new next cell is a START
cell (R159): no play is in progress, the exit is no longer pending, the record and its service are RETURNING, and an INSERT
notice with the break's cause is raised; that it stands behind an INSERT_LAG notice of the same cell is the model's choice
(log entry 12). Where neither holds, the play and the exit go on. -/
def Obligations.DueCells : Prop :=
  ∀ c ch r p clip e gC off cur x (s : State), s.channels.get c = some ch → ch.play = some p →
    s.insertions.get ch.record = some r → r.state = .onLocal → p.clip = some clip → s.clips.get clip = some e →
    p.clipStart = some gC → p.offset = some off → s.currentPos = some cur → p.nextCell < e.written →
    s.services.get r.service = some x → s.control.notices.length < 64 →
    let cell := s.clipRecord (e.base + p.nextCell)
    let due := gC.add s.n cell.due
    let lag := Pos.diff s.n cur due
    (lag < 0 → s.dueCell c = none) ∧
    (p.exitPending = true → cell.start = true → s.dueCell c = none) ∧
    (0 ≤ lag → p.exitPending = false ∨ cell.start = false →
      ∃ (d : DueCell) (lagged : List Notice) (p' : Playback), s.dueCell c = some d ∧ d.cell = cell ∧ d.lag = lag ∧
        d.offset = off ∧ d.channel = c ∧ d.insertion = r ∧ d.record = ch.record ∧
        (lag ≤ s.n ∨ p.lagNoticed = true → lagged = [] ∧ p'.lagNoticed = p.lagNoticed) ∧
        ((s.n : Int) < lag → p.lagNoticed = false → p'.lagNoticed = true ∧
          lagged = [s.time.noticeOf (.insertLag ch.record c clip p.nextCell (due.number s.n)
            (min lag.toNat 16777215))]) ∧
        p'.nextCell = p.nextCell + 1 ∧ p'.lastLag = some (min lag.toNat 16777215) ∧ p'.clip = p.clip ∧
        p'.clipStart = p.clipStart ∧ p'.cursor = p.cursor ∧ p'.stack = p.stack ∧ p'.clock = p.clock ∧
        p'.offset = p.offset ∧ p'.exitPending = p.exitPending ∧
        (∀ k, k ∈ p'.started ↔ k ∈ p.started ∨ k = cell.component) ∧
        (p.nextCell + 1 < e.written → p'.clipEnd = p.clipEnd) ∧
        (p.nextCell + 1 = e.written →
          p'.clipEnd = some (if 0 ≤ Pos.diff s.n (gC.add s.n e.duration) (cur.add s.n 1) then
            gC.add s.n e.duration else cur.add s.n 1)) ∧
        let given : Insertion := { r with localCells := min (r.localCells + 1) 4294967295 }
        let served : ServiceEntry := { x with localCells := min (x.localCells + 1) 4294967295 }
        let ends : Prop := p.nextCell + 1 = e.written ∨ (s.clipRecord (e.base + (p.nextCell + 1))).start = true
        (p.exitPending = false ∨ ¬ends → s.giveCell d = { s with
          insertions := s.insertions.put ch.record given
          channels := s.channels.put c { ch with play := some p' }
          services := s.services.put r.service served
          control := { s.control with notices := s.control.notices ++ lagged } }) ∧
        ∀ cause result, p.exitPending = true → ends → r.brk = some (cause, result) → r.channel = some c →
          s.control.notices.length + lagged.length < 64 → s.giveCell d = { s with
            insertions := s.insertions.put ch.record { given with state := .returning }
            channels := s.channels.put c { ch with play := some { p' with clip := none, exitPending := false } }
            services := s.services.put r.service { served with splice := .returning, active := some ch.record }
            control := { s.control with notices := s.control.notices ++ lagged ++
              [s.time.noticeOf (.insert ch.record r.service .onLocal .returning (.brk cause) r.matched
                s.currentNumber)] } })

/-- The cell a channel gives (R172 to R176): the label of the component, its continuity one on from the last emitted or 0
when none was, DISC on the component's first cell of the play, the flags of the record, the clock field moved by the offset
and the lag, the presentation stamp by the offset alone, and the rest of the payload as stored: all of it in a cell that is
neither CLOCK nor STAMPED, from byte 5 on in a cell that is one of them, from byte 10 on in a cell that is both. The spare
bits are 0 (R202). -/
def Obligations.LocalCellRebased : Prop :=
  ∀ (d : DueCell) (s : State) (x : ServiceEntry) (y : Component), s.services.get d.insertion.service = some x →
    x.components[d.cell.component]? = some y → y.label < 4096 → y.continuity < 16 → d.cell.payload.length = 180 →
    let cell := s.localCell d
    let at_ := if d.cell.clock then 5 else 0
    cell.length = 184 ∧ cellLabel cell = y.label ∧
      cellContinuity cell = (if y.emittedYet then (y.continuity + 1) % 16 else 0) ∧
      cellIsClock cell = d.cell.clock ∧ cellIsStart cell = d.cell.start ∧ (byteAt cell 2).getLsbD 5 = d.cell.stamped ∧
      ((byteAt cell 2).getLsbD 4 = true ↔ d.cell.component ∉ d.play.started) ∧
      (d.cell.clock = true → payloadClock (cell.drop 4) 0 =
        payloadClock d.cell.payload 0 + d.offset + BitVec.ofInt 40 (d.lag * s.site.period)) ∧
      (d.cell.stamped = true → payloadClock (cell.drop 4) at_ = payloadClock d.cell.payload at_ + d.offset) ∧
      (d.cell.clock = false → d.cell.stamped = false → cell.drop 4 = d.cell.payload) ∧
      (d.cell.clock = false ∨ d.cell.stamped = false → (cell.drop 4).drop 5 = d.cell.payload.drop 5) ∧
      (cell.drop 4).drop 10 = d.cell.payload.drop 10 ∧ (byteAt cell 2).toNat % 16 = 0 ∧ byteAt cell 3 = 0#8

/-! ## The Control Link (10, 12) -/

/-- The last byte of a frame (R183 to R185): a CRC that fails is counted as a CRC error; a frame that passes with a reply
outstanding is a busy discard; one that passes with none is taken as a request. The receiver returns to HUNT.
The request taken (R186): of a kind that no request of the part has, it is answered UNKNOWN; with a body of another length
than its kind and the count it carries give, FORMAT; else it is the request of that kind, tag and body, which waits for its
block. The widths that R201 leaves to its reader are log entry 17. -/
def Obligations.FrameCompletes : Prop :=
  ∀ b c header body (s : State), s.control.selected = true → s.control.shiftOut = [] →
    s.control.receiver = .crc header body [c] →
    ((crc16 (header ++ body)).toNat ≠ c.toNat * 256 + b.toNat →
      exec (.completeFrame b) s = .next { s with control := { s.control with
        dataOut := 0, receiver := .hunt, frameError := true
        discards := { s.control.discards with crc := min (s.control.discards.crc + 1) 4294967295 } } }) ∧
    ((crc16 (header ++ body)).toNat = c.toNat * 256 + b.toNat → s.control.reply ≠ .none →
      exec (.completeFrame b) s = .next { s with control := { s.control with
        dataOut := 0, receiver := .hunt, frameError := true
        discards := { s.control.discards with busy := min (s.control.discards.busy + 1) 4294967295 } } }) ∧
    let kind := BitVec.ofNat 16 (fieldNat header 2 2)
    let tag := BitVec.ofNat 16 (fieldNat header 4 2)
    ((crc16 (header ++ body)).toNat = c.toNat * 256 + b.toNat → s.control.reply = .none →
      exec (.completeFrame b) s = .next { s with control := { s.control with
        dataOut := 0, receiver := .hunt, reply := taken kind tag (readRequest kind tag body) } }) ∧
    (requestLength kind body = none → taken kind tag (readRequest kind tag body) = .handled kind tag .unknown []) ∧
    (∀ n, requestLength kind body = some n → body.length ≠ n →
      taken kind tag (readRequest kind tag body) = .handled kind tag .format []) ∧
    (requestLength kind body = some body.length → ∃ i, taken kind tag (readRequest kind tag body) = .taken i ∧
      requestKind i = some (kind, tag) ∧ requestBody i = body)

/-- A frame shifted in byte by byte within a transfer is taken as the request it carries: from HUNT, with no reply
outstanding, the bytes of the frame of a well-formed request leave it taken, and the receiver in HUNT (R181 to R186,
R201). -/
def Obligations.RequestFrameIsTaken : Prop :=
  ∀ i kind tag (s : State), i.wellFormed = true → requestKind i = some (kind, tag) → s.control.receiver = .hunt →
    s.control.reply = .none →
    (frameOf kind tag (requestBody i)).foldl (fun (x : State) b => x.receiveByte b) s =
      { s with control := { s.control with reply := .taken i } }

/-- Every well-formed request reads back from its own body with every field as it was sent (R186, R201; the widths that
R201 leaves to its reader are log entry 17). -/
def Obligations.RequestRoundTrip : Prop :=
  ∀ i kind tag, i.wellFormed = true → requestKind i = some (kind, tag) →
    readRequest kind tag (requestBody i) = .request i

/-- A request whose frame passes while another reply is outstanding is a busy discard (R184, R185): the frame-error flag is
set, the busy count rises by one, and nothing else changes. A refused request changes no state (R186): where a request's
handling ends with a code other than OK, nothing but the outstanding reply has changed, and that reply carries no fields
(R187). -/
def Obligations.BusyAndRefusal : Prop :=
  (∀ i kind tag (s : State), requestKind i = some (kind, tag) → s.control.reply ≠ .none → s.control.reply ≠ .taken i →
    exec i s = .next { s with control := { s.control with
      frameError := true
      discards := { s.control.discards with busy := min (s.control.discards.busy + 1) 4294967295 } } }) ∧
  ∀ i kind tag (s : State) (t : State) code fields, requestKind i = some (kind, tag) → s.mayTake i → exec i s = .next t →
    t.control.reply = .handled kind tag code fields → code ≠ .ok →
    t = s.refusalWaits kind tag code ∧ fields = []

/-- A reply made ready (R187; 12, section 12.4): the kind plus 0x8000, the tag, the result code, the status summary as it
stands, and the fields; the two flags it reports are cleared, and the attention line is up (R189). -/
def Obligations.ReplyMadeReady : Prop :=
  ∀ (s : State) kind tag code fields, s.control.reply = .handled kind tag code fields →
    ∃ (t : State), exec .replyMadeReady s = .next t ∧
      t = { s with control := { s.control with
        noticesLost := false, frameError := false
        reply := .ready (frameOf (kind + 0x8000#16) tag
          ([BitVec.ofNat 8 code.code, BitVec.ofNat 8 s.time.stepState.code,
            BitVec.ofNat 8 ((if s.output.permit then 1 else 0) + (if s.control.noticesLost then 2 else 0) +
              (if s.control.frameError then 4 else 0)), BitVec.ofNat 8 s.control.notices.length, 0] ++ fields)) } } ∧
      t.attention = true

/-- A byte of a transfer in HUNT (R181): 0xB3 takes the receiver to SYNC and any other byte is ignored; 0x5D takes SYNC to
HEADER; the byte shifted out is 0x00 when no reply is being shifted out (R180). A byte other than 0x5D in SYNC is a sync
error and is examined again in HUNT.
A length above 1,600 (R182, R184): the frame is discarded as a length error and the rest of the transfer ignored.
A transfer begins (R180, R181): the receiver is in HUNT, and the reply that is ready is shifted out from its first byte,
or 0x00. It ends (R182, R184): within a frame the frame is cut, counted, and the frame-error flag set; an unread reply
stays ready.
A reply's bytes shifted out (R180): with its last byte the reply is read and no reply is outstanding; a byte before it
leaves it ready. -/
def Obligations.ControlLinkBytes : Prop :=
  ((∀ b (s : State), s.control.selected = true → s.control.shiftOut = [] →
      (s.control.receiver = .hunt → exec (.controlLinkByte b) s = .next { s with control := { s.control with
        dataOut := 0, receiver := if b = 0xB3#8 then .sync else .hunt } }) ∧
      (s.control.receiver = .sync → b = 0x5D#8 → exec (.controlLinkByte b) s = .next { s with control := { s.control with
        dataOut := 0, receiver := .header [] } }) ∧
      (s.control.receiver = .sync → b ≠ 0x5D#8 →
        exec (.syncError b) s = .next { s with control := { s.control with
          dataOut := 0, receiver := if b = 0xB3#8 then .sync else .hunt, frameError := true
          discards := { s.control.discards with sync := min (s.control.discards.sync + 1) 4294967295 } } } ∧
        exec (.controlLinkByte b) s = exec (.syncError b) s)) ∧
   ∀ a b (s : State), s.control.selected = true → s.control.shiftOut = [] → s.control.receiver = .header [a] →
     1600 < a.toNat * 256 + b.toNat →
     exec (.lengthError b) s = .next { s with control := { s.control with
       dataOut := 0, receiver := .discard, frameError := true
       discards := { s.control.discards with length := min (s.control.discards.length + 1) 4294967295 } } } ∧
     exec (.controlLinkByte b) s = exec (.lengthError b) s ∧
     ∀ c (t : State), exec (.controlLinkByte b) s = .next t →
       exec (.controlLinkByte c) t = .next { t with control := { t.control with dataOut := 0 } }) ∧
  ((∀ (s : State), s.control.selected = false →
     exec .transferStart s = .next { s with control := { s.control with
       selected := true, receiver := .hunt
       shiftOut := match s.control.reply with
         | .ready frame => frame
         | _ => [] } }) ∧
   ∀ (s : State), s.control.selected = true →
     (s.control.receiver = .hunt ∨ s.control.receiver = .discard →
       exec .transferEnd s = .next { s with control := { s.control with
         selected := false, receiver := .hunt, shiftOut := [] } }) ∧
     (s.control.receiver ≠ .hunt → s.control.receiver ≠ .discard →
       exec .transferEnd s = .next { s with control := { s.control with
         selected := false, receiver := .hunt, shiftOut := [], frameError := true
         discards := { s.control.discards with cut := min (s.control.discards.cut + 1) 4294967295 } } })) ∧
  (∀ b x (s : State), s.control.selected = true → s.control.shiftOut = [x] → s.control.receiver = .hunt →
    exec (.replyRead b) s = .next { s with control := { s.control with
      dataOut := x, shiftOut := [], reply := .none, receiver := if b = 0xB3#8 then .sync else .hunt } }) ∧
  ∀ b x y rest (s : State), s.control.selected = true → s.control.shiftOut = x :: y :: rest → s.control.receiver = .hunt →
    exec (.controlLinkByte b) s = .next { s with control := { s.control with
      dataOut := x, shiftOut := y :: rest, receiver := if b = 0xB3#8 then .sync else .hunt } }

/-- A notice (R190): it joins the tail of the queue while fewer than 64 are queued; else it is dropped, the queue stays and
the notices-lost flag is set.
NOTICE.FETCH (R191, R189): up to 8 notices from the head of the queue are returned and removed, both unknown-origin
flags are cleared, and the reply is ready in the same event.
STATUS.READ (R193): its reply is ready with what the state holds, the two flags it reports are cleared, and nothing else
changes. COUNTS.READ (R194): its reply gives the link state or the valid flag and the counters of the named link, stream or
service as they stand; with the clear option those counters alone are then set to 0, without it nothing changes; RANGE for a
scope or index that names none. How fields are carried is stated with the reading requests; the layouts that R201 leaves
open are the model's (log entries 17 and 18, DESIGN CHOICE). -/
def Obligations.NoticesStatusAndCounts : Prop :=
  (∀ d (s : State),
     (s.control.notices.length < 64 → s.raise d = { s with control := { s.control with notices := s.noticesWith d } }) ∧
     (64 ≤ s.control.notices.length → s.raise d = { s with control := { s.control with noticesLost := true } })) ∧
  (∀ tag (s : State), s.mayTake (.noticeFetch tag) →
     ∃ (t : State), exec (.noticeFetch tag) s = .next t ∧ t.control.notices = s.control.notices.drop 8 ∧
       t.linkA = { s.linkA with unknownFlag := false } ∧ t.linkB = { s.linkB with unknownFlag := false } ∧
       t.control.reply = .ready (frameOf 0x8701#16 tag ([0] ++
         ({ s with control := { s.control with notices := s.control.notices.drop 8 } } : State).summary ++
         [BitVec.ofNat 8 (s.control.notices.take 8).length] ++ (s.control.notices.take 8).flatMap Notice.bytes)) ∧
       t.time = s.time ∧ t.streams = s.streams ∧ t.insertions = s.insertions ∧ t.output = s.output ∧ t.attention = true) ∧
  (∀ tag (s : State), s.mayTake (.statusRead tag) →
    let inState (st : RecordState) : Nat := s.insertions.countP (fun p => decide (p.2.state = st))
    exec (.statusRead tag) s = .next { s with control := { s.control with
      noticesLost := false, frameError := false
      reply := .ready (frameOf 0x8703#16 tag ([0] ++ s.summary ++ beBytes 1 s.time.stepState.code ++
        beBytes 1 s.time.config.policy.code ++ encFlag s.time.epochKnown ++
        encOptNat 4 (if s.time.epochKnown then some s.time.second.toNat else none) ++ beBytes 3 s.assembler.slot ++
        encOptNat 3 s.slotNumber ++ encFirst s.linkA.up ++ encFirst s.linkB.up ++
        encFlag (s.linkA.up || s.linkB.up) ++ encFirst s.site.output ++ encFlag s.output.permit ++
        beBytes 1 (16 - s.insertions.length) ++ beBytes 1 (inState .armed) ++ beBytes 1 (inState .primed) ++
        beBytes 1 (inState .onLocal) ++ beBytes 1 (inState .returning) ++ beBytes 1 (inState .done) ++
        beBytes 1 s.channels.length ++ beBytes 1 s.control.notices.length ++ encFlag s.control.noticesLost ++
        encFlag s.control.frameError ++ beBytes 4 s.control.discards.sync ++ beBytes 4 s.control.discards.length ++
        beBytes 4 s.control.discards.cut ++ beBytes 4 s.control.discards.crc ++ beBytes 4 s.control.discards.busy)) } }) ∧
  ∀ tag scope index clear (s : State), s.mayTake (.countsRead tag scope index clear) →
    let named : Prop := (scope = 0#8 ∧ index.toNat ≤ 1) ∨ (scope = 1#8 ∧ index.toNat ≤ 511) ∨
      (scope = 2#8 ∧ index.toNat ≤ 63)
    let link (k : LinkState) : Bytes := encFirst k.up ++ ([k.counts.cells, k.counts.crcErrors, k.counts.runts,
      k.counts.overlong, k.counts.badStamps, k.counts.overruns, k.counts.unknownOrigin, k.counts.streamMisses,
      k.counts.firstArrivals, k.counts.secondArrivals].flatMap (beBytes 4))
    let fields : Bytes :=
      if scope = 0#8 then link (if index.toNat = 0 then s.linkA else s.linkB)
      else if scope = 1#8 then (match s.streams.get index.toNat with
        | some e => 1 :: ([e.counts.accepted, e.counts.duplicate, e.counts.stale, e.counts.lost, e.counts.late,
            e.counts.early, e.counts.collision, e.counts.misaligned, e.counts.untimed,
            e.counts.inconsistent].flatMap (beBytes 4))
        | none => List.replicate 41 0)
      else (match s.services.get index.toNat with
        | some e => 1 :: ([e.replaced, e.localCells, e.nulls].flatMap (beBytes 4))
        | none => List.replicate 13 0)
    (¬named ∨ (clear ≠ 0#8 ∧ clear ≠ 1#8) →
      exec (.countsRead tag scope index clear) s = .next (s.refusalWaits 0x0704#16 tag .range)) ∧
    (named → clear = 0#8 →
      exec (.countsRead tag scope index clear) s = .next (s.okWaits 0x0704#16 tag fields)) ∧
    (named → clear = 1#8 →
      ∃ (t : State), exec (.countsRead tag scope index clear) s = .next (t.okWaits 0x0704#16 tag fields) ∧
        (scope = 0#8 → index.toNat = 0 → t = { s with linkA := { s.linkA with counts := .zero } }) ∧
        (scope = 0#8 → index.toNat = 1 → t = { s with linkB := { s.linkB with counts := .zero } }) ∧
        (scope = 1#8 → t = { s with streams := t.streams } ∧ ∀ k, t.streams.get k =
          (s.streams.get k).map (fun e => if k = index.toNat then { e with counts := .zero } else e)) ∧
        (scope = 2#8 → t = { s with services := t.services } ∧ ∀ k, t.services.get k =
          (s.services.get k).map (fun e =>
            if k = index.toNat then { e with replaced := 0, localCells := 0, nulls := 0 } else e)))

/-! ## Laws every step keeps -/

/-- The laws of the model's invariants hold right after reset. -/
def Obligations.ResetIsSound : Prop :=
  State.reset.canonical = true ∧ State.reset.ringTagged ∧ State.reset.permitSound ∧ State.reset.queuesBounded ∧
    State.reset.loopInRange ∧ State.reset.siteTimeSound ∧ State.reset.cellsWhole ∧ State.reset.reelsSound ∧
    State.reset.insertionSound

/-- Every step keeps every table and the clip area of cell memory in canonical form. -/
def Obligations.StepKeepsCanonical : Prop :=
  ∀ (s : State) (t : State), s.canonical = true → step s = .next t → t.canonical = true

/-- Every step keeps the law of the Release Ring (R85): each valid entry's tag is congruent to its position. -/
def Obligations.StepKeepsRingTags : Prop :=
  ∀ (s : State) (t : State), s.ringTagged → step s = .next t → t.ringTagged

/-- Every step keeps the law of the permit line (R20): asserted only while the permit condition holds. -/
def Obligations.StepKeepsPermitSound : Prop :=
  ∀ (s : State) (t : State), s.permitSound → step s = .next t → t.permitSound

/-- Every step keeps the bounds of the notice queue and of the hand-on queues (R190, R32).
Every step keeps the steering word and the integrator in their ranges (R9), and the tick count within the second with P
one of the eleven slot periods (00); notices are held back only for a second boundary that is due (log entry 32).
Every step keeps every cell on its way to a slot whole: 184 bytes, and 180 of a stored payload (12, section 12.2).
Every step keeps every stored reel one that REEL.SET accepts: at most 24 steps, balanced, no depth above 4, no empty body
(R130). -/
def Obligations.StepKeepsBounds : Prop :=
  (∀ (s : State) (t : State), s.queuesBounded → step s = .next t → t.queuesBounded) ∧
  (∀ (s : State) (t : State), s.loopInRange → step s = .next t → t.loopInRange) ∧
  (∀ (s : State) (t : State), s.siteTimeSound → step s = .next t → t.siteTimeSound) ∧
  (∀ (s : State) (t : State), s.cellsWhole → step s = .next t → t.cellsWhole) ∧
  ∀ (s : State) (t : State), s.reelsSound → step s = .next t → t.reelsSound

/-- Every step keeps the law of splices (R140).
The law of R140 in its own words: in a sound state a service's splice state is NETWORK exactly when no record that names
it is PRIMED, LOCAL or RETURNING, and at most one such record names it. -/
def Obligations.StepKeepsInsertionLaw : Prop :=
  (∀ (s : State) (t : State), s.canonical = true → s.insertionSound → step s = .next t → t.insertionSound) ∧
  ∀ (s : State), s.insertionSound → ∀ k,
    (s.spliceOf k = .network ↔ ∀ j r, s.insertions.get j = some r → r.service = k →
      r.state ≠ .primed ∧ r.state ≠ .onLocal ∧ r.state ≠ .returning) ∧
    ∀ i j q r, s.insertions.get i = some q → s.insertions.get j = some r → q.holds = true → r.holds = true →
      q.service = k → r.service = k → i = j
end

