-- ==== Sys2Proof/Laws/State.lean ====
section
/-! SUPPORT. What the shared updates of the state leave as it stands: one lemma for each field, true by rfl. -/

namespace Sys2Proof.Machine

variable (s : State)

/-! ## A notice raised -/

@[simp] theorem State.raise_time (d : NoticeDetail) : (s.raise d).time = s.time := rfl
@[simp] theorem State.raise_site (d : NoticeDetail) : (s.raise d).site = s.site := rfl
@[simp] theorem State.raise_linkA (d : NoticeDetail) : (s.raise d).linkA = s.linkA := rfl
@[simp] theorem State.raise_linkB (d : NoticeDetail) : (s.raise d).linkB = s.linkB := rfl
@[simp] theorem State.raise_origins (d : NoticeDetail) : (s.raise d).origins = s.origins := rfl
@[simp] theorem State.raise_streams (d : NoticeDetail) : (s.raise d).streams = s.streams := rfl
@[simp] theorem State.raise_services (d : NoticeDetail) : (s.raise d).services = s.services := rfl
@[simp] theorem State.raise_toRelease (d : NoticeDetail) : (s.raise d).toRelease = s.toRelease := rfl
@[simp] theorem State.raise_toTiming (d : NoticeDetail) : (s.raise d).toTiming = s.toTiming := rfl
@[simp] theorem State.raise_toCue (d : NoticeDetail) : (s.raise d).toCue = s.toCue := rfl
@[simp] theorem State.raise_release (d : NoticeDetail) : (s.raise d).release = s.release := rfl
@[simp] theorem State.raise_ring (d : NoticeDetail) : (s.raise d).ring = s.ring := rfl
@[simp] theorem State.raise_assembler (d : NoticeDetail) : (s.raise d).assembler = s.assembler := rfl
@[simp] theorem State.raise_output (d : NoticeDetail) : (s.raise d).output = s.output := rfl
@[simp] theorem State.raise_clips (d : NoticeDetail) : (s.raise d).clips = s.clips := rfl
@[simp] theorem State.raise_clipCells (d : NoticeDetail) : (s.raise d).clipCells = s.clipCells := rfl
@[simp] theorem State.raise_reels (d : NoticeDetail) : (s.raise d).reels = s.reels := rfl
@[simp] theorem State.raise_insertions (d : NoticeDetail) : (s.raise d).insertions = s.insertions := rfl
@[simp] theorem State.raise_channels (d : NoticeDetail) : (s.raise d).channels = s.channels := rfl
@[simp] theorem State.raise_secondDue (d : NoticeDetail) : (s.raise d).secondDue = s.secondDue := rfl
@[simp] theorem State.raise_slotDue (d : NoticeDetail) : (s.raise d).slotDue = s.slotDue := rfl
@[simp] theorem State.raise_heldNotices (d : NoticeDetail) : (s.raise d).heldNotices = s.heldNotices := rfl
@[simp] theorem State.raise_freeCount (d : NoticeDetail) : (s.raise d).freeCount = s.freeCount := rfl
@[simp] theorem State.raise_pending (d : NoticeDetail) : (s.raise d).pending = s.pending := rfl

/-! ## A notice of the Time Unit raised -/

@[simp] theorem State.raiseTime_time (d : NoticeDetail) : (s.raiseTime d).time = s.time := rfl
@[simp] theorem State.raiseTime_site (d : NoticeDetail) : (s.raiseTime d).site = s.site := rfl
@[simp] theorem State.raiseTime_linkA (d : NoticeDetail) : (s.raiseTime d).linkA = s.linkA := rfl
@[simp] theorem State.raiseTime_linkB (d : NoticeDetail) : (s.raiseTime d).linkB = s.linkB := rfl
@[simp] theorem State.raiseTime_origins (d : NoticeDetail) : (s.raiseTime d).origins = s.origins := rfl
@[simp] theorem State.raiseTime_streams (d : NoticeDetail) : (s.raiseTime d).streams = s.streams := rfl
@[simp] theorem State.raiseTime_services (d : NoticeDetail) : (s.raiseTime d).services = s.services := rfl
@[simp] theorem State.raiseTime_toRelease (d : NoticeDetail) : (s.raiseTime d).toRelease = s.toRelease := rfl
@[simp] theorem State.raiseTime_toTiming (d : NoticeDetail) : (s.raiseTime d).toTiming = s.toTiming := rfl
@[simp] theorem State.raiseTime_toCue (d : NoticeDetail) : (s.raiseTime d).toCue = s.toCue := rfl
@[simp] theorem State.raiseTime_release (d : NoticeDetail) : (s.raiseTime d).release = s.release := rfl
@[simp] theorem State.raiseTime_ring (d : NoticeDetail) : (s.raiseTime d).ring = s.ring := rfl
@[simp] theorem State.raiseTime_assembler (d : NoticeDetail) : (s.raiseTime d).assembler = s.assembler := rfl
@[simp] theorem State.raiseTime_output (d : NoticeDetail) : (s.raiseTime d).output = s.output := rfl
@[simp] theorem State.raiseTime_clips (d : NoticeDetail) : (s.raiseTime d).clips = s.clips := rfl
@[simp] theorem State.raiseTime_clipCells (d : NoticeDetail) : (s.raiseTime d).clipCells = s.clipCells := rfl
@[simp] theorem State.raiseTime_reels (d : NoticeDetail) : (s.raiseTime d).reels = s.reels := rfl
@[simp] theorem State.raiseTime_insertions (d : NoticeDetail) : (s.raiseTime d).insertions = s.insertions := rfl
@[simp] theorem State.raiseTime_channels (d : NoticeDetail) : (s.raiseTime d).channels = s.channels := rfl
@[simp] theorem State.raiseTime_secondDue (d : NoticeDetail) : (s.raiseTime d).secondDue = s.secondDue := rfl
@[simp] theorem State.raiseTime_slotDue (d : NoticeDetail) : (s.raiseTime d).slotDue = s.slotDue := rfl
@[simp] theorem State.raiseTime_freeCount (d : NoticeDetail) : (s.raiseTime d).freeCount = s.freeCount := rfl
@[simp] theorem State.raiseTime_pending (d : NoticeDetail) : (s.raiseTime d).pending = s.pending := rfl

/-! ## The permit line dropped -/

@[simp] theorem State.dropPermit_time : (s.dropPermit).time = s.time := rfl
@[simp] theorem State.dropPermit_site : (s.dropPermit).site = s.site := rfl
@[simp] theorem State.dropPermit_linkA : (s.dropPermit).linkA = s.linkA := rfl
@[simp] theorem State.dropPermit_linkB : (s.dropPermit).linkB = s.linkB := rfl
@[simp] theorem State.dropPermit_origins : (s.dropPermit).origins = s.origins := rfl
@[simp] theorem State.dropPermit_streams : (s.dropPermit).streams = s.streams := rfl
@[simp] theorem State.dropPermit_services : (s.dropPermit).services = s.services := rfl
@[simp] theorem State.dropPermit_toRelease : (s.dropPermit).toRelease = s.toRelease := rfl
@[simp] theorem State.dropPermit_toTiming : (s.dropPermit).toTiming = s.toTiming := rfl
@[simp] theorem State.dropPermit_toCue : (s.dropPermit).toCue = s.toCue := rfl
@[simp] theorem State.dropPermit_release : (s.dropPermit).release = s.release := rfl
@[simp] theorem State.dropPermit_ring : (s.dropPermit).ring = s.ring := rfl
@[simp] theorem State.dropPermit_assembler : (s.dropPermit).assembler = s.assembler := rfl
@[simp] theorem State.dropPermit_clips : (s.dropPermit).clips = s.clips := rfl
@[simp] theorem State.dropPermit_clipCells : (s.dropPermit).clipCells = s.clipCells := rfl
@[simp] theorem State.dropPermit_reels : (s.dropPermit).reels = s.reels := rfl
@[simp] theorem State.dropPermit_insertions : (s.dropPermit).insertions = s.insertions := rfl
@[simp] theorem State.dropPermit_channels : (s.dropPermit).channels = s.channels := rfl
@[simp] theorem State.dropPermit_control : (s.dropPermit).control = s.control := rfl
@[simp] theorem State.dropPermit_secondDue : (s.dropPermit).secondDue = s.secondDue := rfl
@[simp] theorem State.dropPermit_slotDue : (s.dropPermit).slotDue = s.slotDue := rfl
@[simp] theorem State.dropPermit_heldNotices : (s.dropPermit).heldNotices = s.heldNotices := rfl
@[simp] theorem State.dropPermit_freeCount : (s.dropPermit).freeCount = s.freeCount := rfl
@[simp] theorem State.dropPermit_pending : (s.dropPermit).pending = s.pending := rfl

/-! ## A change of step state -/

@[simp] theorem State.enterStep_site (new : StepState) (cause : StepCause) : (s.enterStep new cause).site = s.site := rfl
@[simp] theorem State.enterStep_linkA (new : StepState) (cause : StepCause) : (s.enterStep new cause).linkA = s.linkA := rfl
@[simp] theorem State.enterStep_linkB (new : StepState) (cause : StepCause) : (s.enterStep new cause).linkB = s.linkB := rfl
@[simp] theorem State.enterStep_origins (new : StepState) (cause : StepCause) : (s.enterStep new cause).origins = s.origins := rfl
@[simp] theorem State.enterStep_streams (new : StepState) (cause : StepCause) : (s.enterStep new cause).streams = s.streams := rfl
@[simp] theorem State.enterStep_services (new : StepState) (cause : StepCause) : (s.enterStep new cause).services = s.services := rfl
@[simp] theorem State.enterStep_toRelease (new : StepState) (cause : StepCause) : (s.enterStep new cause).toRelease = s.toRelease := rfl
@[simp] theorem State.enterStep_toTiming (new : StepState) (cause : StepCause) : (s.enterStep new cause).toTiming = s.toTiming := rfl
@[simp] theorem State.enterStep_toCue (new : StepState) (cause : StepCause) : (s.enterStep new cause).toCue = s.toCue := rfl
@[simp] theorem State.enterStep_release (new : StepState) (cause : StepCause) : (s.enterStep new cause).release = s.release := rfl
@[simp] theorem State.enterStep_ring (new : StepState) (cause : StepCause) : (s.enterStep new cause).ring = s.ring := rfl
@[simp] theorem State.enterStep_assembler (new : StepState) (cause : StepCause) : (s.enterStep new cause).assembler = s.assembler := rfl
@[simp] theorem State.enterStep_clips (new : StepState) (cause : StepCause) : (s.enterStep new cause).clips = s.clips := rfl
@[simp] theorem State.enterStep_clipCells (new : StepState) (cause : StepCause) : (s.enterStep new cause).clipCells = s.clipCells := rfl
@[simp] theorem State.enterStep_reels (new : StepState) (cause : StepCause) : (s.enterStep new cause).reels = s.reels := rfl
@[simp] theorem State.enterStep_insertions (new : StepState) (cause : StepCause) : (s.enterStep new cause).insertions = s.insertions := rfl
@[simp] theorem State.enterStep_channels (new : StepState) (cause : StepCause) : (s.enterStep new cause).channels = s.channels := rfl
@[simp] theorem State.enterStep_secondDue (new : StepState) (cause : StepCause) : (s.enterStep new cause).secondDue = s.secondDue := rfl
@[simp] theorem State.enterStep_slotDue (new : StepState) (cause : StepCause) : (s.enterStep new cause).slotDue = s.slotDue := rfl
@[simp] theorem State.enterStep_freeCount (new : StepState) (cause : StepCause) : (s.enterStep new cause).freeCount = s.freeCount := rfl
@[simp] theorem State.enterStep_pending (new : StepState) (cause : StepCause) : (s.enterStep new cause).pending = s.pending := rfl

/-! ## A frame discarded -/

@[simp] theorem State.discardFrame_time (f : DiscardCounts → DiscardCounts) : (s.discardFrame f).time = s.time := rfl
@[simp] theorem State.discardFrame_site (f : DiscardCounts → DiscardCounts) : (s.discardFrame f).site = s.site := rfl
@[simp] theorem State.discardFrame_linkA (f : DiscardCounts → DiscardCounts) : (s.discardFrame f).linkA = s.linkA := rfl
@[simp] theorem State.discardFrame_linkB (f : DiscardCounts → DiscardCounts) : (s.discardFrame f).linkB = s.linkB := rfl
@[simp] theorem State.discardFrame_origins (f : DiscardCounts → DiscardCounts) : (s.discardFrame f).origins = s.origins := rfl
@[simp] theorem State.discardFrame_streams (f : DiscardCounts → DiscardCounts) : (s.discardFrame f).streams = s.streams := rfl
@[simp] theorem State.discardFrame_services (f : DiscardCounts → DiscardCounts) : (s.discardFrame f).services = s.services := rfl
@[simp] theorem State.discardFrame_toRelease (f : DiscardCounts → DiscardCounts) : (s.discardFrame f).toRelease = s.toRelease := rfl
@[simp] theorem State.discardFrame_toTiming (f : DiscardCounts → DiscardCounts) : (s.discardFrame f).toTiming = s.toTiming := rfl
@[simp] theorem State.discardFrame_toCue (f : DiscardCounts → DiscardCounts) : (s.discardFrame f).toCue = s.toCue := rfl
@[simp] theorem State.discardFrame_release (f : DiscardCounts → DiscardCounts) : (s.discardFrame f).release = s.release := rfl
@[simp] theorem State.discardFrame_ring (f : DiscardCounts → DiscardCounts) : (s.discardFrame f).ring = s.ring := rfl
@[simp] theorem State.discardFrame_assembler (f : DiscardCounts → DiscardCounts) : (s.discardFrame f).assembler = s.assembler := rfl
@[simp] theorem State.discardFrame_output (f : DiscardCounts → DiscardCounts) : (s.discardFrame f).output = s.output := rfl
@[simp] theorem State.discardFrame_clips (f : DiscardCounts → DiscardCounts) : (s.discardFrame f).clips = s.clips := rfl
@[simp] theorem State.discardFrame_clipCells (f : DiscardCounts → DiscardCounts) : (s.discardFrame f).clipCells = s.clipCells := rfl
@[simp] theorem State.discardFrame_reels (f : DiscardCounts → DiscardCounts) : (s.discardFrame f).reels = s.reels := rfl
@[simp] theorem State.discardFrame_insertions (f : DiscardCounts → DiscardCounts) : (s.discardFrame f).insertions = s.insertions := rfl
@[simp] theorem State.discardFrame_channels (f : DiscardCounts → DiscardCounts) : (s.discardFrame f).channels = s.channels := rfl
@[simp] theorem State.discardFrame_secondDue (f : DiscardCounts → DiscardCounts) : (s.discardFrame f).secondDue = s.secondDue := rfl
@[simp] theorem State.discardFrame_slotDue (f : DiscardCounts → DiscardCounts) : (s.discardFrame f).slotDue = s.slotDue := rfl
@[simp] theorem State.discardFrame_heldNotices (f : DiscardCounts → DiscardCounts) : (s.discardFrame f).heldNotices = s.heldNotices := rfl
@[simp] theorem State.discardFrame_freeCount (f : DiscardCounts → DiscardCounts) : (s.discardFrame f).freeCount = s.freeCount := rfl
@[simp] theorem State.discardFrame_pending (f : DiscardCounts → DiscardCounts) : (s.discardFrame f).pending = s.pending := rfl

/-! ## A busy discard -/

@[simp] theorem State.discardBusy_time : (s.discardBusy).time = s.time := rfl
@[simp] theorem State.discardBusy_site : (s.discardBusy).site = s.site := rfl
@[simp] theorem State.discardBusy_linkA : (s.discardBusy).linkA = s.linkA := rfl
@[simp] theorem State.discardBusy_linkB : (s.discardBusy).linkB = s.linkB := rfl
@[simp] theorem State.discardBusy_origins : (s.discardBusy).origins = s.origins := rfl
@[simp] theorem State.discardBusy_streams : (s.discardBusy).streams = s.streams := rfl
@[simp] theorem State.discardBusy_services : (s.discardBusy).services = s.services := rfl
@[simp] theorem State.discardBusy_toRelease : (s.discardBusy).toRelease = s.toRelease := rfl
@[simp] theorem State.discardBusy_toTiming : (s.discardBusy).toTiming = s.toTiming := rfl
@[simp] theorem State.discardBusy_toCue : (s.discardBusy).toCue = s.toCue := rfl
@[simp] theorem State.discardBusy_release : (s.discardBusy).release = s.release := rfl
@[simp] theorem State.discardBusy_ring : (s.discardBusy).ring = s.ring := rfl
@[simp] theorem State.discardBusy_assembler : (s.discardBusy).assembler = s.assembler := rfl
@[simp] theorem State.discardBusy_output : (s.discardBusy).output = s.output := rfl
@[simp] theorem State.discardBusy_clips : (s.discardBusy).clips = s.clips := rfl
@[simp] theorem State.discardBusy_clipCells : (s.discardBusy).clipCells = s.clipCells := rfl
@[simp] theorem State.discardBusy_reels : (s.discardBusy).reels = s.reels := rfl
@[simp] theorem State.discardBusy_insertions : (s.discardBusy).insertions = s.insertions := rfl
@[simp] theorem State.discardBusy_channels : (s.discardBusy).channels = s.channels := rfl
@[simp] theorem State.discardBusy_secondDue : (s.discardBusy).secondDue = s.secondDue := rfl
@[simp] theorem State.discardBusy_slotDue : (s.discardBusy).slotDue = s.slotDue := rfl
@[simp] theorem State.discardBusy_heldNotices : (s.discardBusy).heldNotices = s.heldNotices := rfl
@[simp] theorem State.discardBusy_freeCount : (s.discardBusy).freeCount = s.freeCount := rfl
@[simp] theorem State.discardBusy_pending : (s.discardBusy).pending = s.pending := rfl

/-! ## A reply made ready -/

@[simp] theorem State.readyReply_time (kind tag : BitVec 16) (code : ResultCode) (fields : Bytes) : (s.readyReply kind tag code fields).time = s.time := rfl
@[simp] theorem State.readyReply_site (kind tag : BitVec 16) (code : ResultCode) (fields : Bytes) : (s.readyReply kind tag code fields).site = s.site := rfl
@[simp] theorem State.readyReply_linkA (kind tag : BitVec 16) (code : ResultCode) (fields : Bytes) : (s.readyReply kind tag code fields).linkA = s.linkA := rfl
@[simp] theorem State.readyReply_linkB (kind tag : BitVec 16) (code : ResultCode) (fields : Bytes) : (s.readyReply kind tag code fields).linkB = s.linkB := rfl
@[simp] theorem State.readyReply_origins (kind tag : BitVec 16) (code : ResultCode) (fields : Bytes) : (s.readyReply kind tag code fields).origins = s.origins := rfl
@[simp] theorem State.readyReply_streams (kind tag : BitVec 16) (code : ResultCode) (fields : Bytes) : (s.readyReply kind tag code fields).streams = s.streams := rfl
@[simp] theorem State.readyReply_services (kind tag : BitVec 16) (code : ResultCode) (fields : Bytes) : (s.readyReply kind tag code fields).services = s.services := rfl
@[simp] theorem State.readyReply_toRelease (kind tag : BitVec 16) (code : ResultCode) (fields : Bytes) : (s.readyReply kind tag code fields).toRelease = s.toRelease := rfl
@[simp] theorem State.readyReply_toTiming (kind tag : BitVec 16) (code : ResultCode) (fields : Bytes) : (s.readyReply kind tag code fields).toTiming = s.toTiming := rfl
@[simp] theorem State.readyReply_toCue (kind tag : BitVec 16) (code : ResultCode) (fields : Bytes) : (s.readyReply kind tag code fields).toCue = s.toCue := rfl
@[simp] theorem State.readyReply_release (kind tag : BitVec 16) (code : ResultCode) (fields : Bytes) : (s.readyReply kind tag code fields).release = s.release := rfl
@[simp] theorem State.readyReply_ring (kind tag : BitVec 16) (code : ResultCode) (fields : Bytes) : (s.readyReply kind tag code fields).ring = s.ring := rfl
@[simp] theorem State.readyReply_assembler (kind tag : BitVec 16) (code : ResultCode) (fields : Bytes) : (s.readyReply kind tag code fields).assembler = s.assembler := rfl
@[simp] theorem State.readyReply_output (kind tag : BitVec 16) (code : ResultCode) (fields : Bytes) : (s.readyReply kind tag code fields).output = s.output := rfl
@[simp] theorem State.readyReply_clips (kind tag : BitVec 16) (code : ResultCode) (fields : Bytes) : (s.readyReply kind tag code fields).clips = s.clips := rfl
@[simp] theorem State.readyReply_clipCells (kind tag : BitVec 16) (code : ResultCode) (fields : Bytes) : (s.readyReply kind tag code fields).clipCells = s.clipCells := rfl
@[simp] theorem State.readyReply_reels (kind tag : BitVec 16) (code : ResultCode) (fields : Bytes) : (s.readyReply kind tag code fields).reels = s.reels := rfl
@[simp] theorem State.readyReply_insertions (kind tag : BitVec 16) (code : ResultCode) (fields : Bytes) : (s.readyReply kind tag code fields).insertions = s.insertions := rfl
@[simp] theorem State.readyReply_channels (kind tag : BitVec 16) (code : ResultCode) (fields : Bytes) : (s.readyReply kind tag code fields).channels = s.channels := rfl
@[simp] theorem State.readyReply_secondDue (kind tag : BitVec 16) (code : ResultCode) (fields : Bytes) : (s.readyReply kind tag code fields).secondDue = s.secondDue := rfl
@[simp] theorem State.readyReply_slotDue (kind tag : BitVec 16) (code : ResultCode) (fields : Bytes) : (s.readyReply kind tag code fields).slotDue = s.slotDue := rfl
@[simp] theorem State.readyReply_heldNotices (kind tag : BitVec 16) (code : ResultCode) (fields : Bytes) : (s.readyReply kind tag code fields).heldNotices = s.heldNotices := rfl
@[simp] theorem State.readyReply_freeCount (kind tag : BitVec 16) (code : ResultCode) (fields : Bytes) : (s.readyReply kind tag code fields).freeCount = s.freeCount := rfl
@[simp] theorem State.readyReply_pending (kind tag : BitVec 16) (code : ResultCode) (fields : Bytes) : (s.readyReply kind tag code fields).pending = s.pending := rfl

/-! ## The frame receiver's state replaced -/

@[simp] theorem State.setReceiver_time (r : FrameReceiver) : (s.setReceiver r).time = s.time := rfl
@[simp] theorem State.setReceiver_site (r : FrameReceiver) : (s.setReceiver r).site = s.site := rfl
@[simp] theorem State.setReceiver_linkA (r : FrameReceiver) : (s.setReceiver r).linkA = s.linkA := rfl
@[simp] theorem State.setReceiver_linkB (r : FrameReceiver) : (s.setReceiver r).linkB = s.linkB := rfl
@[simp] theorem State.setReceiver_origins (r : FrameReceiver) : (s.setReceiver r).origins = s.origins := rfl
@[simp] theorem State.setReceiver_streams (r : FrameReceiver) : (s.setReceiver r).streams = s.streams := rfl
@[simp] theorem State.setReceiver_services (r : FrameReceiver) : (s.setReceiver r).services = s.services := rfl
@[simp] theorem State.setReceiver_toRelease (r : FrameReceiver) : (s.setReceiver r).toRelease = s.toRelease := rfl
@[simp] theorem State.setReceiver_toTiming (r : FrameReceiver) : (s.setReceiver r).toTiming = s.toTiming := rfl
@[simp] theorem State.setReceiver_toCue (r : FrameReceiver) : (s.setReceiver r).toCue = s.toCue := rfl
@[simp] theorem State.setReceiver_release (r : FrameReceiver) : (s.setReceiver r).release = s.release := rfl
@[simp] theorem State.setReceiver_ring (r : FrameReceiver) : (s.setReceiver r).ring = s.ring := rfl
@[simp] theorem State.setReceiver_assembler (r : FrameReceiver) : (s.setReceiver r).assembler = s.assembler := rfl
@[simp] theorem State.setReceiver_output (r : FrameReceiver) : (s.setReceiver r).output = s.output := rfl
@[simp] theorem State.setReceiver_clips (r : FrameReceiver) : (s.setReceiver r).clips = s.clips := rfl
@[simp] theorem State.setReceiver_clipCells (r : FrameReceiver) : (s.setReceiver r).clipCells = s.clipCells := rfl
@[simp] theorem State.setReceiver_reels (r : FrameReceiver) : (s.setReceiver r).reels = s.reels := rfl
@[simp] theorem State.setReceiver_insertions (r : FrameReceiver) : (s.setReceiver r).insertions = s.insertions := rfl
@[simp] theorem State.setReceiver_channels (r : FrameReceiver) : (s.setReceiver r).channels = s.channels := rfl
@[simp] theorem State.setReceiver_secondDue (r : FrameReceiver) : (s.setReceiver r).secondDue = s.secondDue := rfl
@[simp] theorem State.setReceiver_slotDue (r : FrameReceiver) : (s.setReceiver r).slotDue = s.slotDue := rfl
@[simp] theorem State.setReceiver_heldNotices (r : FrameReceiver) : (s.setReceiver r).heldNotices = s.heldNotices := rfl
@[simp] theorem State.setReceiver_freeCount (r : FrameReceiver) : (s.setReceiver r).freeCount = s.freeCount := rfl
@[simp] theorem State.setReceiver_pending (r : FrameReceiver) : (s.setReceiver r).pending = s.pending := rfl

/-! ## A link's receiver replaced -/

@[simp] theorem State.setLink_time (l : Link) (k : LinkState) : (s.setLink l k).time = s.time := rfl
@[simp] theorem State.setLink_site (l : Link) (k : LinkState) : (s.setLink l k).site = s.site := rfl
@[simp] theorem State.setLink_origins (l : Link) (k : LinkState) : (s.setLink l k).origins = s.origins := rfl
@[simp] theorem State.setLink_streams (l : Link) (k : LinkState) : (s.setLink l k).streams = s.streams := rfl
@[simp] theorem State.setLink_services (l : Link) (k : LinkState) : (s.setLink l k).services = s.services := rfl
@[simp] theorem State.setLink_toRelease (l : Link) (k : LinkState) : (s.setLink l k).toRelease = s.toRelease := rfl
@[simp] theorem State.setLink_toTiming (l : Link) (k : LinkState) : (s.setLink l k).toTiming = s.toTiming := rfl
@[simp] theorem State.setLink_toCue (l : Link) (k : LinkState) : (s.setLink l k).toCue = s.toCue := rfl
@[simp] theorem State.setLink_release (l : Link) (k : LinkState) : (s.setLink l k).release = s.release := rfl
@[simp] theorem State.setLink_ring (l : Link) (k : LinkState) : (s.setLink l k).ring = s.ring := rfl
@[simp] theorem State.setLink_assembler (l : Link) (k : LinkState) : (s.setLink l k).assembler = s.assembler := rfl
@[simp] theorem State.setLink_output (l : Link) (k : LinkState) : (s.setLink l k).output = s.output := rfl
@[simp] theorem State.setLink_clips (l : Link) (k : LinkState) : (s.setLink l k).clips = s.clips := rfl
@[simp] theorem State.setLink_clipCells (l : Link) (k : LinkState) : (s.setLink l k).clipCells = s.clipCells := rfl
@[simp] theorem State.setLink_reels (l : Link) (k : LinkState) : (s.setLink l k).reels = s.reels := rfl
@[simp] theorem State.setLink_insertions (l : Link) (k : LinkState) : (s.setLink l k).insertions = s.insertions := rfl
@[simp] theorem State.setLink_channels (l : Link) (k : LinkState) : (s.setLink l k).channels = s.channels := rfl
@[simp] theorem State.setLink_control (l : Link) (k : LinkState) : (s.setLink l k).control = s.control := rfl
@[simp] theorem State.setLink_secondDue (l : Link) (k : LinkState) : (s.setLink l k).secondDue = s.secondDue := rfl
@[simp] theorem State.setLink_slotDue (l : Link) (k : LinkState) : (s.setLink l k).slotDue = s.slotDue := rfl
@[simp] theorem State.setLink_heldNotices (l : Link) (k : LinkState) : (s.setLink l k).heldNotices = s.heldNotices := rfl
@[simp] theorem State.setLink_freeCount (l : Link) (k : LinkState) : (s.setLink l k).freeCount = s.freeCount := rfl
@[simp] theorem State.setLink_pending (l : Link) (k : LinkState) : (s.setLink l k).pending = s.pending := rfl

/-! ## A link's counters changed -/

@[simp] theorem State.countLink_time (l : Link) (f : LinkCounts → LinkCounts) : (s.countLink l f).time = s.time := rfl
@[simp] theorem State.countLink_site (l : Link) (f : LinkCounts → LinkCounts) : (s.countLink l f).site = s.site := rfl
@[simp] theorem State.countLink_origins (l : Link) (f : LinkCounts → LinkCounts) : (s.countLink l f).origins = s.origins := rfl
@[simp] theorem State.countLink_streams (l : Link) (f : LinkCounts → LinkCounts) : (s.countLink l f).streams = s.streams := rfl
@[simp] theorem State.countLink_services (l : Link) (f : LinkCounts → LinkCounts) : (s.countLink l f).services = s.services := rfl
@[simp] theorem State.countLink_toRelease (l : Link) (f : LinkCounts → LinkCounts) : (s.countLink l f).toRelease = s.toRelease := rfl
@[simp] theorem State.countLink_toTiming (l : Link) (f : LinkCounts → LinkCounts) : (s.countLink l f).toTiming = s.toTiming := rfl
@[simp] theorem State.countLink_toCue (l : Link) (f : LinkCounts → LinkCounts) : (s.countLink l f).toCue = s.toCue := rfl
@[simp] theorem State.countLink_release (l : Link) (f : LinkCounts → LinkCounts) : (s.countLink l f).release = s.release := rfl
@[simp] theorem State.countLink_ring (l : Link) (f : LinkCounts → LinkCounts) : (s.countLink l f).ring = s.ring := rfl
@[simp] theorem State.countLink_assembler (l : Link) (f : LinkCounts → LinkCounts) : (s.countLink l f).assembler = s.assembler := rfl
@[simp] theorem State.countLink_output (l : Link) (f : LinkCounts → LinkCounts) : (s.countLink l f).output = s.output := rfl
@[simp] theorem State.countLink_clips (l : Link) (f : LinkCounts → LinkCounts) : (s.countLink l f).clips = s.clips := rfl
@[simp] theorem State.countLink_clipCells (l : Link) (f : LinkCounts → LinkCounts) : (s.countLink l f).clipCells = s.clipCells := rfl
@[simp] theorem State.countLink_reels (l : Link) (f : LinkCounts → LinkCounts) : (s.countLink l f).reels = s.reels := rfl
@[simp] theorem State.countLink_insertions (l : Link) (f : LinkCounts → LinkCounts) : (s.countLink l f).insertions = s.insertions := rfl
@[simp] theorem State.countLink_channels (l : Link) (f : LinkCounts → LinkCounts) : (s.countLink l f).channels = s.channels := rfl
@[simp] theorem State.countLink_control (l : Link) (f : LinkCounts → LinkCounts) : (s.countLink l f).control = s.control := rfl
@[simp] theorem State.countLink_secondDue (l : Link) (f : LinkCounts → LinkCounts) : (s.countLink l f).secondDue = s.secondDue := rfl
@[simp] theorem State.countLink_slotDue (l : Link) (f : LinkCounts → LinkCounts) : (s.countLink l f).slotDue = s.slotDue := rfl
@[simp] theorem State.countLink_heldNotices (l : Link) (f : LinkCounts → LinkCounts) : (s.countLink l f).heldNotices = s.heldNotices := rfl
@[simp] theorem State.countLink_freeCount (l : Link) (f : LinkCounts → LinkCounts) : (s.countLink l f).freeCount = s.freeCount := rfl
@[simp] theorem State.countLink_pending (l : Link) (f : LinkCounts → LinkCounts) : (s.countLink l f).pending = s.pending := rfl

/-! ## A count on a carried stream -/

@[simp] theorem State.countHanded_time (h : HandedCell) (f : StreamCounts → StreamCounts) : (s.countHanded h f).time = s.time := rfl
@[simp] theorem State.countHanded_site (h : HandedCell) (f : StreamCounts → StreamCounts) : (s.countHanded h f).site = s.site := rfl
@[simp] theorem State.countHanded_linkA (h : HandedCell) (f : StreamCounts → StreamCounts) : (s.countHanded h f).linkA = s.linkA := rfl
@[simp] theorem State.countHanded_linkB (h : HandedCell) (f : StreamCounts → StreamCounts) : (s.countHanded h f).linkB = s.linkB := rfl
@[simp] theorem State.countHanded_origins (h : HandedCell) (f : StreamCounts → StreamCounts) : (s.countHanded h f).origins = s.origins := rfl
@[simp] theorem State.countHanded_services (h : HandedCell) (f : StreamCounts → StreamCounts) : (s.countHanded h f).services = s.services := rfl
@[simp] theorem State.countHanded_toRelease (h : HandedCell) (f : StreamCounts → StreamCounts) : (s.countHanded h f).toRelease = s.toRelease := rfl
@[simp] theorem State.countHanded_toTiming (h : HandedCell) (f : StreamCounts → StreamCounts) : (s.countHanded h f).toTiming = s.toTiming := rfl
@[simp] theorem State.countHanded_toCue (h : HandedCell) (f : StreamCounts → StreamCounts) : (s.countHanded h f).toCue = s.toCue := rfl
@[simp] theorem State.countHanded_release (h : HandedCell) (f : StreamCounts → StreamCounts) : (s.countHanded h f).release = s.release := rfl
@[simp] theorem State.countHanded_ring (h : HandedCell) (f : StreamCounts → StreamCounts) : (s.countHanded h f).ring = s.ring := rfl
@[simp] theorem State.countHanded_assembler (h : HandedCell) (f : StreamCounts → StreamCounts) : (s.countHanded h f).assembler = s.assembler := rfl
@[simp] theorem State.countHanded_output (h : HandedCell) (f : StreamCounts → StreamCounts) : (s.countHanded h f).output = s.output := rfl
@[simp] theorem State.countHanded_clips (h : HandedCell) (f : StreamCounts → StreamCounts) : (s.countHanded h f).clips = s.clips := rfl
@[simp] theorem State.countHanded_clipCells (h : HandedCell) (f : StreamCounts → StreamCounts) : (s.countHanded h f).clipCells = s.clipCells := rfl
@[simp] theorem State.countHanded_reels (h : HandedCell) (f : StreamCounts → StreamCounts) : (s.countHanded h f).reels = s.reels := rfl
@[simp] theorem State.countHanded_insertions (h : HandedCell) (f : StreamCounts → StreamCounts) : (s.countHanded h f).insertions = s.insertions := rfl
@[simp] theorem State.countHanded_channels (h : HandedCell) (f : StreamCounts → StreamCounts) : (s.countHanded h f).channels = s.channels := rfl
@[simp] theorem State.countHanded_control (h : HandedCell) (f : StreamCounts → StreamCounts) : (s.countHanded h f).control = s.control := rfl
@[simp] theorem State.countHanded_secondDue (h : HandedCell) (f : StreamCounts → StreamCounts) : (s.countHanded h f).secondDue = s.secondDue := rfl
@[simp] theorem State.countHanded_slotDue (h : HandedCell) (f : StreamCounts → StreamCounts) : (s.countHanded h f).slotDue = s.slotDue := rfl
@[simp] theorem State.countHanded_heldNotices (h : HandedCell) (f : StreamCounts → StreamCounts) : (s.countHanded h f).heldNotices = s.heldNotices := rfl
@[simp] theorem State.countHanded_freeCount (h : HandedCell) (f : StreamCounts → StreamCounts) : (s.countHanded h f).freeCount = s.freeCount := rfl
@[simp] theorem State.countHanded_pending (h : HandedCell) (f : StreamCounts → StreamCounts) : (s.countHanded h f).pending = s.pending := rfl

/-! ## A service changed -/

@[simp] theorem State.updateService_time (k : Nat) (f : ServiceEntry → ServiceEntry) : (s.updateService k f).time = s.time := rfl
@[simp] theorem State.updateService_site (k : Nat) (f : ServiceEntry → ServiceEntry) : (s.updateService k f).site = s.site := rfl
@[simp] theorem State.updateService_linkA (k : Nat) (f : ServiceEntry → ServiceEntry) : (s.updateService k f).linkA = s.linkA := rfl
@[simp] theorem State.updateService_linkB (k : Nat) (f : ServiceEntry → ServiceEntry) : (s.updateService k f).linkB = s.linkB := rfl
@[simp] theorem State.updateService_origins (k : Nat) (f : ServiceEntry → ServiceEntry) : (s.updateService k f).origins = s.origins := rfl
@[simp] theorem State.updateService_streams (k : Nat) (f : ServiceEntry → ServiceEntry) : (s.updateService k f).streams = s.streams := rfl
@[simp] theorem State.updateService_toRelease (k : Nat) (f : ServiceEntry → ServiceEntry) : (s.updateService k f).toRelease = s.toRelease := rfl
@[simp] theorem State.updateService_toTiming (k : Nat) (f : ServiceEntry → ServiceEntry) : (s.updateService k f).toTiming = s.toTiming := rfl
@[simp] theorem State.updateService_toCue (k : Nat) (f : ServiceEntry → ServiceEntry) : (s.updateService k f).toCue = s.toCue := rfl
@[simp] theorem State.updateService_release (k : Nat) (f : ServiceEntry → ServiceEntry) : (s.updateService k f).release = s.release := rfl
@[simp] theorem State.updateService_ring (k : Nat) (f : ServiceEntry → ServiceEntry) : (s.updateService k f).ring = s.ring := rfl
@[simp] theorem State.updateService_assembler (k : Nat) (f : ServiceEntry → ServiceEntry) : (s.updateService k f).assembler = s.assembler := rfl
@[simp] theorem State.updateService_output (k : Nat) (f : ServiceEntry → ServiceEntry) : (s.updateService k f).output = s.output := rfl
@[simp] theorem State.updateService_clips (k : Nat) (f : ServiceEntry → ServiceEntry) : (s.updateService k f).clips = s.clips := rfl
@[simp] theorem State.updateService_clipCells (k : Nat) (f : ServiceEntry → ServiceEntry) : (s.updateService k f).clipCells = s.clipCells := rfl
@[simp] theorem State.updateService_reels (k : Nat) (f : ServiceEntry → ServiceEntry) : (s.updateService k f).reels = s.reels := rfl
@[simp] theorem State.updateService_insertions (k : Nat) (f : ServiceEntry → ServiceEntry) : (s.updateService k f).insertions = s.insertions := rfl
@[simp] theorem State.updateService_channels (k : Nat) (f : ServiceEntry → ServiceEntry) : (s.updateService k f).channels = s.channels := rfl
@[simp] theorem State.updateService_control (k : Nat) (f : ServiceEntry → ServiceEntry) : (s.updateService k f).control = s.control := rfl
@[simp] theorem State.updateService_secondDue (k : Nat) (f : ServiceEntry → ServiceEntry) : (s.updateService k f).secondDue = s.secondDue := rfl
@[simp] theorem State.updateService_slotDue (k : Nat) (f : ServiceEntry → ServiceEntry) : (s.updateService k f).slotDue = s.slotDue := rfl
@[simp] theorem State.updateService_heldNotices (k : Nat) (f : ServiceEntry → ServiceEntry) : (s.updateService k f).heldNotices = s.heldNotices := rfl
@[simp] theorem State.updateService_freeCount (k : Nat) (f : ServiceEntry → ServiceEntry) : (s.updateService k f).freeCount = s.freeCount := rfl
@[simp] theorem State.updateService_pending (k : Nat) (f : ServiceEntry → ServiceEntry) : (s.updateService k f).pending = s.pending := rfl

/-! ## A splice state set -/

@[simp] theorem State.setSplice_time (k : Nat) (x : SpliceState) (a : Option Nat) : (s.setSplice k x a).time = s.time := rfl
@[simp] theorem State.setSplice_site (k : Nat) (x : SpliceState) (a : Option Nat) : (s.setSplice k x a).site = s.site := rfl
@[simp] theorem State.setSplice_linkA (k : Nat) (x : SpliceState) (a : Option Nat) : (s.setSplice k x a).linkA = s.linkA := rfl
@[simp] theorem State.setSplice_linkB (k : Nat) (x : SpliceState) (a : Option Nat) : (s.setSplice k x a).linkB = s.linkB := rfl
@[simp] theorem State.setSplice_origins (k : Nat) (x : SpliceState) (a : Option Nat) : (s.setSplice k x a).origins = s.origins := rfl
@[simp] theorem State.setSplice_streams (k : Nat) (x : SpliceState) (a : Option Nat) : (s.setSplice k x a).streams = s.streams := rfl
@[simp] theorem State.setSplice_toRelease (k : Nat) (x : SpliceState) (a : Option Nat) : (s.setSplice k x a).toRelease = s.toRelease := rfl
@[simp] theorem State.setSplice_toTiming (k : Nat) (x : SpliceState) (a : Option Nat) : (s.setSplice k x a).toTiming = s.toTiming := rfl
@[simp] theorem State.setSplice_toCue (k : Nat) (x : SpliceState) (a : Option Nat) : (s.setSplice k x a).toCue = s.toCue := rfl
@[simp] theorem State.setSplice_release (k : Nat) (x : SpliceState) (a : Option Nat) : (s.setSplice k x a).release = s.release := rfl
@[simp] theorem State.setSplice_ring (k : Nat) (x : SpliceState) (a : Option Nat) : (s.setSplice k x a).ring = s.ring := rfl
@[simp] theorem State.setSplice_assembler (k : Nat) (x : SpliceState) (a : Option Nat) : (s.setSplice k x a).assembler = s.assembler := rfl
@[simp] theorem State.setSplice_output (k : Nat) (x : SpliceState) (a : Option Nat) : (s.setSplice k x a).output = s.output := rfl
@[simp] theorem State.setSplice_clips (k : Nat) (x : SpliceState) (a : Option Nat) : (s.setSplice k x a).clips = s.clips := rfl
@[simp] theorem State.setSplice_clipCells (k : Nat) (x : SpliceState) (a : Option Nat) : (s.setSplice k x a).clipCells = s.clipCells := rfl
@[simp] theorem State.setSplice_reels (k : Nat) (x : SpliceState) (a : Option Nat) : (s.setSplice k x a).reels = s.reels := rfl
@[simp] theorem State.setSplice_insertions (k : Nat) (x : SpliceState) (a : Option Nat) : (s.setSplice k x a).insertions = s.insertions := rfl
@[simp] theorem State.setSplice_channels (k : Nat) (x : SpliceState) (a : Option Nat) : (s.setSplice k x a).channels = s.channels := rfl
@[simp] theorem State.setSplice_control (k : Nat) (x : SpliceState) (a : Option Nat) : (s.setSplice k x a).control = s.control := rfl
@[simp] theorem State.setSplice_secondDue (k : Nat) (x : SpliceState) (a : Option Nat) : (s.setSplice k x a).secondDue = s.secondDue := rfl
@[simp] theorem State.setSplice_slotDue (k : Nat) (x : SpliceState) (a : Option Nat) : (s.setSplice k x a).slotDue = s.slotDue := rfl
@[simp] theorem State.setSplice_heldNotices (k : Nat) (x : SpliceState) (a : Option Nat) : (s.setSplice k x a).heldNotices = s.heldNotices := rfl
@[simp] theorem State.setSplice_freeCount (k : Nat) (x : SpliceState) (a : Option Nat) : (s.setSplice k x a).freeCount = s.freeCount := rfl
@[simp] theorem State.setSplice_pending (k : Nat) (x : SpliceState) (a : Option Nat) : (s.setSplice k x a).pending = s.pending := rfl

/-! ## Await-DISC flags set -/

@[simp] theorem State.awaitDisc_time (k : Nat) : (s.awaitDisc k).time = s.time := rfl
@[simp] theorem State.awaitDisc_site (k : Nat) : (s.awaitDisc k).site = s.site := rfl
@[simp] theorem State.awaitDisc_linkA (k : Nat) : (s.awaitDisc k).linkA = s.linkA := rfl
@[simp] theorem State.awaitDisc_linkB (k : Nat) : (s.awaitDisc k).linkB = s.linkB := rfl
@[simp] theorem State.awaitDisc_origins (k : Nat) : (s.awaitDisc k).origins = s.origins := rfl
@[simp] theorem State.awaitDisc_streams (k : Nat) : (s.awaitDisc k).streams = s.streams := rfl
@[simp] theorem State.awaitDisc_toRelease (k : Nat) : (s.awaitDisc k).toRelease = s.toRelease := rfl
@[simp] theorem State.awaitDisc_toTiming (k : Nat) : (s.awaitDisc k).toTiming = s.toTiming := rfl
@[simp] theorem State.awaitDisc_toCue (k : Nat) : (s.awaitDisc k).toCue = s.toCue := rfl
@[simp] theorem State.awaitDisc_release (k : Nat) : (s.awaitDisc k).release = s.release := rfl
@[simp] theorem State.awaitDisc_ring (k : Nat) : (s.awaitDisc k).ring = s.ring := rfl
@[simp] theorem State.awaitDisc_assembler (k : Nat) : (s.awaitDisc k).assembler = s.assembler := rfl
@[simp] theorem State.awaitDisc_output (k : Nat) : (s.awaitDisc k).output = s.output := rfl
@[simp] theorem State.awaitDisc_clips (k : Nat) : (s.awaitDisc k).clips = s.clips := rfl
@[simp] theorem State.awaitDisc_clipCells (k : Nat) : (s.awaitDisc k).clipCells = s.clipCells := rfl
@[simp] theorem State.awaitDisc_reels (k : Nat) : (s.awaitDisc k).reels = s.reels := rfl
@[simp] theorem State.awaitDisc_insertions (k : Nat) : (s.awaitDisc k).insertions = s.insertions := rfl
@[simp] theorem State.awaitDisc_channels (k : Nat) : (s.awaitDisc k).channels = s.channels := rfl
@[simp] theorem State.awaitDisc_control (k : Nat) : (s.awaitDisc k).control = s.control := rfl
@[simp] theorem State.awaitDisc_secondDue (k : Nat) : (s.awaitDisc k).secondDue = s.secondDue := rfl
@[simp] theorem State.awaitDisc_slotDue (k : Nat) : (s.awaitDisc k).slotDue = s.slotDue := rfl
@[simp] theorem State.awaitDisc_heldNotices (k : Nat) : (s.awaitDisc k).heldNotices = s.heldNotices := rfl
@[simp] theorem State.awaitDisc_freeCount (k : Nat) : (s.awaitDisc k).freeCount = s.freeCount := rfl
@[simp] theorem State.awaitDisc_pending (k : Nat) : (s.awaitDisc k).pending = s.pending := rfl

/-! ## Anchors invalidated -/

@[simp] theorem State.invalidateAnchors_time : (s.invalidateAnchors).time = s.time := rfl
@[simp] theorem State.invalidateAnchors_site : (s.invalidateAnchors).site = s.site := rfl
@[simp] theorem State.invalidateAnchors_linkA : (s.invalidateAnchors).linkA = s.linkA := rfl
@[simp] theorem State.invalidateAnchors_linkB : (s.invalidateAnchors).linkB = s.linkB := rfl
@[simp] theorem State.invalidateAnchors_origins : (s.invalidateAnchors).origins = s.origins := rfl
@[simp] theorem State.invalidateAnchors_streams : (s.invalidateAnchors).streams = s.streams := rfl
@[simp] theorem State.invalidateAnchors_toRelease : (s.invalidateAnchors).toRelease = s.toRelease := rfl
@[simp] theorem State.invalidateAnchors_toTiming : (s.invalidateAnchors).toTiming = s.toTiming := rfl
@[simp] theorem State.invalidateAnchors_toCue : (s.invalidateAnchors).toCue = s.toCue := rfl
@[simp] theorem State.invalidateAnchors_release : (s.invalidateAnchors).release = s.release := rfl
@[simp] theorem State.invalidateAnchors_ring : (s.invalidateAnchors).ring = s.ring := rfl
@[simp] theorem State.invalidateAnchors_assembler : (s.invalidateAnchors).assembler = s.assembler := rfl
@[simp] theorem State.invalidateAnchors_output : (s.invalidateAnchors).output = s.output := rfl
@[simp] theorem State.invalidateAnchors_clips : (s.invalidateAnchors).clips = s.clips := rfl
@[simp] theorem State.invalidateAnchors_clipCells : (s.invalidateAnchors).clipCells = s.clipCells := rfl
@[simp] theorem State.invalidateAnchors_reels : (s.invalidateAnchors).reels = s.reels := rfl
@[simp] theorem State.invalidateAnchors_insertions : (s.invalidateAnchors).insertions = s.insertions := rfl
@[simp] theorem State.invalidateAnchors_channels : (s.invalidateAnchors).channels = s.channels := rfl
@[simp] theorem State.invalidateAnchors_control : (s.invalidateAnchors).control = s.control := rfl
@[simp] theorem State.invalidateAnchors_secondDue : (s.invalidateAnchors).secondDue = s.secondDue := rfl
@[simp] theorem State.invalidateAnchors_slotDue : (s.invalidateAnchors).slotDue = s.slotDue := rfl
@[simp] theorem State.invalidateAnchors_heldNotices : (s.invalidateAnchors).heldNotices = s.heldNotices := rfl
@[simp] theorem State.invalidateAnchors_freeCount : (s.invalidateAnchors).freeCount = s.freeCount := rfl
@[simp] theorem State.invalidateAnchors_pending : (s.invalidateAnchors).pending = s.pending := rfl

/-! ## An emitted cell recorded -/

@[simp] theorem State.recordEmitted_time (cell : Bytes) : (s.recordEmitted cell).time = s.time := rfl
@[simp] theorem State.recordEmitted_site (cell : Bytes) : (s.recordEmitted cell).site = s.site := rfl
@[simp] theorem State.recordEmitted_linkA (cell : Bytes) : (s.recordEmitted cell).linkA = s.linkA := rfl
@[simp] theorem State.recordEmitted_linkB (cell : Bytes) : (s.recordEmitted cell).linkB = s.linkB := rfl
@[simp] theorem State.recordEmitted_origins (cell : Bytes) : (s.recordEmitted cell).origins = s.origins := rfl
@[simp] theorem State.recordEmitted_streams (cell : Bytes) : (s.recordEmitted cell).streams = s.streams := rfl
@[simp] theorem State.recordEmitted_toRelease (cell : Bytes) : (s.recordEmitted cell).toRelease = s.toRelease := rfl
@[simp] theorem State.recordEmitted_toTiming (cell : Bytes) : (s.recordEmitted cell).toTiming = s.toTiming := rfl
@[simp] theorem State.recordEmitted_toCue (cell : Bytes) : (s.recordEmitted cell).toCue = s.toCue := rfl
@[simp] theorem State.recordEmitted_release (cell : Bytes) : (s.recordEmitted cell).release = s.release := rfl
@[simp] theorem State.recordEmitted_ring (cell : Bytes) : (s.recordEmitted cell).ring = s.ring := rfl
@[simp] theorem State.recordEmitted_assembler (cell : Bytes) : (s.recordEmitted cell).assembler = s.assembler := rfl
@[simp] theorem State.recordEmitted_output (cell : Bytes) : (s.recordEmitted cell).output = s.output := rfl
@[simp] theorem State.recordEmitted_clips (cell : Bytes) : (s.recordEmitted cell).clips = s.clips := rfl
@[simp] theorem State.recordEmitted_clipCells (cell : Bytes) : (s.recordEmitted cell).clipCells = s.clipCells := rfl
@[simp] theorem State.recordEmitted_reels (cell : Bytes) : (s.recordEmitted cell).reels = s.reels := rfl
@[simp] theorem State.recordEmitted_insertions (cell : Bytes) : (s.recordEmitted cell).insertions = s.insertions := rfl
@[simp] theorem State.recordEmitted_channels (cell : Bytes) : (s.recordEmitted cell).channels = s.channels := rfl
@[simp] theorem State.recordEmitted_control (cell : Bytes) : (s.recordEmitted cell).control = s.control := rfl
@[simp] theorem State.recordEmitted_secondDue (cell : Bytes) : (s.recordEmitted cell).secondDue = s.secondDue := rfl
@[simp] theorem State.recordEmitted_slotDue (cell : Bytes) : (s.recordEmitted cell).slotDue = s.slotDue := rfl
@[simp] theorem State.recordEmitted_heldNotices (cell : Bytes) : (s.recordEmitted cell).heldNotices = s.heldNotices := rfl
@[simp] theorem State.recordEmitted_freeCount (cell : Bytes) : (s.recordEmitted cell).freeCount = s.freeCount := rfl
@[simp] theorem State.recordEmitted_pending (cell : Bytes) : (s.recordEmitted cell).pending = s.pending := rfl

/-! ## A record replaced -/

@[simp] theorem State.putRecord_time (k : Nat) (r : Insertion) : (s.putRecord k r).time = s.time := rfl
@[simp] theorem State.putRecord_site (k : Nat) (r : Insertion) : (s.putRecord k r).site = s.site := rfl
@[simp] theorem State.putRecord_linkA (k : Nat) (r : Insertion) : (s.putRecord k r).linkA = s.linkA := rfl
@[simp] theorem State.putRecord_linkB (k : Nat) (r : Insertion) : (s.putRecord k r).linkB = s.linkB := rfl
@[simp] theorem State.putRecord_origins (k : Nat) (r : Insertion) : (s.putRecord k r).origins = s.origins := rfl
@[simp] theorem State.putRecord_streams (k : Nat) (r : Insertion) : (s.putRecord k r).streams = s.streams := rfl
@[simp] theorem State.putRecord_services (k : Nat) (r : Insertion) : (s.putRecord k r).services = s.services := rfl
@[simp] theorem State.putRecord_toRelease (k : Nat) (r : Insertion) : (s.putRecord k r).toRelease = s.toRelease := rfl
@[simp] theorem State.putRecord_toTiming (k : Nat) (r : Insertion) : (s.putRecord k r).toTiming = s.toTiming := rfl
@[simp] theorem State.putRecord_toCue (k : Nat) (r : Insertion) : (s.putRecord k r).toCue = s.toCue := rfl
@[simp] theorem State.putRecord_release (k : Nat) (r : Insertion) : (s.putRecord k r).release = s.release := rfl
@[simp] theorem State.putRecord_ring (k : Nat) (r : Insertion) : (s.putRecord k r).ring = s.ring := rfl
@[simp] theorem State.putRecord_assembler (k : Nat) (r : Insertion) : (s.putRecord k r).assembler = s.assembler := rfl
@[simp] theorem State.putRecord_output (k : Nat) (r : Insertion) : (s.putRecord k r).output = s.output := rfl
@[simp] theorem State.putRecord_clips (k : Nat) (r : Insertion) : (s.putRecord k r).clips = s.clips := rfl
@[simp] theorem State.putRecord_clipCells (k : Nat) (r : Insertion) : (s.putRecord k r).clipCells = s.clipCells := rfl
@[simp] theorem State.putRecord_reels (k : Nat) (r : Insertion) : (s.putRecord k r).reels = s.reels := rfl
@[simp] theorem State.putRecord_channels (k : Nat) (r : Insertion) : (s.putRecord k r).channels = s.channels := rfl
@[simp] theorem State.putRecord_control (k : Nat) (r : Insertion) : (s.putRecord k r).control = s.control := rfl
@[simp] theorem State.putRecord_secondDue (k : Nat) (r : Insertion) : (s.putRecord k r).secondDue = s.secondDue := rfl
@[simp] theorem State.putRecord_slotDue (k : Nat) (r : Insertion) : (s.putRecord k r).slotDue = s.slotDue := rfl
@[simp] theorem State.putRecord_heldNotices (k : Nat) (r : Insertion) : (s.putRecord k r).heldNotices = s.heldNotices := rfl
@[simp] theorem State.putRecord_freeCount (k : Nat) (r : Insertion) : (s.putRecord k r).freeCount = s.freeCount := rfl
@[simp] theorem State.putRecord_pending (k : Nat) (r : Insertion) : (s.putRecord k r).pending = s.pending := rfl

/-! ## A playback replaced -/

@[simp] theorem State.setPlay_time (c : Option Nat) (p : Playback) : (s.setPlay c p).time = s.time := rfl
@[simp] theorem State.setPlay_site (c : Option Nat) (p : Playback) : (s.setPlay c p).site = s.site := rfl
@[simp] theorem State.setPlay_linkA (c : Option Nat) (p : Playback) : (s.setPlay c p).linkA = s.linkA := rfl
@[simp] theorem State.setPlay_linkB (c : Option Nat) (p : Playback) : (s.setPlay c p).linkB = s.linkB := rfl
@[simp] theorem State.setPlay_origins (c : Option Nat) (p : Playback) : (s.setPlay c p).origins = s.origins := rfl
@[simp] theorem State.setPlay_streams (c : Option Nat) (p : Playback) : (s.setPlay c p).streams = s.streams := rfl
@[simp] theorem State.setPlay_services (c : Option Nat) (p : Playback) : (s.setPlay c p).services = s.services := rfl
@[simp] theorem State.setPlay_toRelease (c : Option Nat) (p : Playback) : (s.setPlay c p).toRelease = s.toRelease := rfl
@[simp] theorem State.setPlay_toTiming (c : Option Nat) (p : Playback) : (s.setPlay c p).toTiming = s.toTiming := rfl
@[simp] theorem State.setPlay_toCue (c : Option Nat) (p : Playback) : (s.setPlay c p).toCue = s.toCue := rfl
@[simp] theorem State.setPlay_release (c : Option Nat) (p : Playback) : (s.setPlay c p).release = s.release := rfl
@[simp] theorem State.setPlay_ring (c : Option Nat) (p : Playback) : (s.setPlay c p).ring = s.ring := rfl
@[simp] theorem State.setPlay_assembler (c : Option Nat) (p : Playback) : (s.setPlay c p).assembler = s.assembler := rfl
@[simp] theorem State.setPlay_output (c : Option Nat) (p : Playback) : (s.setPlay c p).output = s.output := rfl
@[simp] theorem State.setPlay_clips (c : Option Nat) (p : Playback) : (s.setPlay c p).clips = s.clips := rfl
@[simp] theorem State.setPlay_clipCells (c : Option Nat) (p : Playback) : (s.setPlay c p).clipCells = s.clipCells := rfl
@[simp] theorem State.setPlay_reels (c : Option Nat) (p : Playback) : (s.setPlay c p).reels = s.reels := rfl
@[simp] theorem State.setPlay_insertions (c : Option Nat) (p : Playback) : (s.setPlay c p).insertions = s.insertions := rfl
@[simp] theorem State.setPlay_control (c : Option Nat) (p : Playback) : (s.setPlay c p).control = s.control := rfl
@[simp] theorem State.setPlay_secondDue (c : Option Nat) (p : Playback) : (s.setPlay c p).secondDue = s.secondDue := rfl
@[simp] theorem State.setPlay_slotDue (c : Option Nat) (p : Playback) : (s.setPlay c p).slotDue = s.slotDue := rfl
@[simp] theorem State.setPlay_heldNotices (c : Option Nat) (p : Playback) : (s.setPlay c p).heldNotices = s.heldNotices := rfl
@[simp] theorem State.setPlay_freeCount (c : Option Nat) (p : Playback) : (s.setPlay c p).freeCount = s.freeCount := rfl
@[simp] theorem State.setPlay_pending (c : Option Nat) (p : Playback) : (s.setPlay c p).pending = s.pending := rfl

/-! ## A channel freed -/

@[simp] theorem State.releaseChannel_time (c : Option Nat) : (s.releaseChannel c).time = s.time := rfl
@[simp] theorem State.releaseChannel_site (c : Option Nat) : (s.releaseChannel c).site = s.site := rfl
@[simp] theorem State.releaseChannel_linkA (c : Option Nat) : (s.releaseChannel c).linkA = s.linkA := rfl
@[simp] theorem State.releaseChannel_linkB (c : Option Nat) : (s.releaseChannel c).linkB = s.linkB := rfl
@[simp] theorem State.releaseChannel_origins (c : Option Nat) : (s.releaseChannel c).origins = s.origins := rfl
@[simp] theorem State.releaseChannel_streams (c : Option Nat) : (s.releaseChannel c).streams = s.streams := rfl
@[simp] theorem State.releaseChannel_services (c : Option Nat) : (s.releaseChannel c).services = s.services := rfl
@[simp] theorem State.releaseChannel_toRelease (c : Option Nat) : (s.releaseChannel c).toRelease = s.toRelease := rfl
@[simp] theorem State.releaseChannel_toTiming (c : Option Nat) : (s.releaseChannel c).toTiming = s.toTiming := rfl
@[simp] theorem State.releaseChannel_toCue (c : Option Nat) : (s.releaseChannel c).toCue = s.toCue := rfl
@[simp] theorem State.releaseChannel_release (c : Option Nat) : (s.releaseChannel c).release = s.release := rfl
@[simp] theorem State.releaseChannel_ring (c : Option Nat) : (s.releaseChannel c).ring = s.ring := rfl
@[simp] theorem State.releaseChannel_assembler (c : Option Nat) : (s.releaseChannel c).assembler = s.assembler := rfl
@[simp] theorem State.releaseChannel_output (c : Option Nat) : (s.releaseChannel c).output = s.output := rfl
@[simp] theorem State.releaseChannel_clips (c : Option Nat) : (s.releaseChannel c).clips = s.clips := rfl
@[simp] theorem State.releaseChannel_clipCells (c : Option Nat) : (s.releaseChannel c).clipCells = s.clipCells := rfl
@[simp] theorem State.releaseChannel_reels (c : Option Nat) : (s.releaseChannel c).reels = s.reels := rfl
@[simp] theorem State.releaseChannel_insertions (c : Option Nat) : (s.releaseChannel c).insertions = s.insertions := rfl
@[simp] theorem State.releaseChannel_control (c : Option Nat) : (s.releaseChannel c).control = s.control := rfl
@[simp] theorem State.releaseChannel_secondDue (c : Option Nat) : (s.releaseChannel c).secondDue = s.secondDue := rfl
@[simp] theorem State.releaseChannel_slotDue (c : Option Nat) : (s.releaseChannel c).slotDue = s.slotDue := rfl
@[simp] theorem State.releaseChannel_heldNotices (c : Option Nat) : (s.releaseChannel c).heldNotices = s.heldNotices := rfl
@[simp] theorem State.releaseChannel_freeCount (c : Option Nat) : (s.releaseChannel c).freeCount = s.freeCount := rfl
@[simp] theorem State.releaseChannel_pending (c : Option Nat) : (s.releaseChannel c).pending = s.pending := rfl

/-! ## Use and pin counts changed -/

@[simp] theorem State.changeHolds_time (reel : Nat) (f : Nat → Nat) : (s.changeHolds reel f).time = s.time := rfl
@[simp] theorem State.changeHolds_site (reel : Nat) (f : Nat → Nat) : (s.changeHolds reel f).site = s.site := rfl
@[simp] theorem State.changeHolds_linkA (reel : Nat) (f : Nat → Nat) : (s.changeHolds reel f).linkA = s.linkA := rfl
@[simp] theorem State.changeHolds_linkB (reel : Nat) (f : Nat → Nat) : (s.changeHolds reel f).linkB = s.linkB := rfl
@[simp] theorem State.changeHolds_origins (reel : Nat) (f : Nat → Nat) : (s.changeHolds reel f).origins = s.origins := rfl
@[simp] theorem State.changeHolds_streams (reel : Nat) (f : Nat → Nat) : (s.changeHolds reel f).streams = s.streams := rfl
@[simp] theorem State.changeHolds_services (reel : Nat) (f : Nat → Nat) : (s.changeHolds reel f).services = s.services := rfl
@[simp] theorem State.changeHolds_toRelease (reel : Nat) (f : Nat → Nat) : (s.changeHolds reel f).toRelease = s.toRelease := rfl
@[simp] theorem State.changeHolds_toTiming (reel : Nat) (f : Nat → Nat) : (s.changeHolds reel f).toTiming = s.toTiming := rfl
@[simp] theorem State.changeHolds_toCue (reel : Nat) (f : Nat → Nat) : (s.changeHolds reel f).toCue = s.toCue := rfl
@[simp] theorem State.changeHolds_release (reel : Nat) (f : Nat → Nat) : (s.changeHolds reel f).release = s.release := rfl
@[simp] theorem State.changeHolds_ring (reel : Nat) (f : Nat → Nat) : (s.changeHolds reel f).ring = s.ring := rfl
@[simp] theorem State.changeHolds_assembler (reel : Nat) (f : Nat → Nat) : (s.changeHolds reel f).assembler = s.assembler := rfl
@[simp] theorem State.changeHolds_output (reel : Nat) (f : Nat → Nat) : (s.changeHolds reel f).output = s.output := rfl
@[simp] theorem State.changeHolds_clipCells (reel : Nat) (f : Nat → Nat) : (s.changeHolds reel f).clipCells = s.clipCells := rfl
@[simp] theorem State.changeHolds_insertions (reel : Nat) (f : Nat → Nat) : (s.changeHolds reel f).insertions = s.insertions := rfl
@[simp] theorem State.changeHolds_channels (reel : Nat) (f : Nat → Nat) : (s.changeHolds reel f).channels = s.channels := rfl
@[simp] theorem State.changeHolds_control (reel : Nat) (f : Nat → Nat) : (s.changeHolds reel f).control = s.control := rfl
@[simp] theorem State.changeHolds_secondDue (reel : Nat) (f : Nat → Nat) : (s.changeHolds reel f).secondDue = s.secondDue := rfl
@[simp] theorem State.changeHolds_slotDue (reel : Nat) (f : Nat → Nat) : (s.changeHolds reel f).slotDue = s.slotDue := rfl
@[simp] theorem State.changeHolds_heldNotices (reel : Nat) (f : Nat → Nat) : (s.changeHolds reel f).heldNotices = s.heldNotices := rfl
@[simp] theorem State.changeHolds_freeCount (reel : Nat) (f : Nat → Nat) : (s.changeHolds reel f).freeCount = s.freeCount := rfl
@[simp] theorem State.changeHolds_pending (reel : Nat) (f : Nat → Nat) : (s.changeHolds reel f).pending = s.pending := rfl

end Sys2Proof.Machine
end

