-- ==== Sys2Proof/Laws/Tables.lean ====
section
/-! SUPPORT. Every operation on tables keeps the canonical form, and what stands at an index after each. -/

namespace Sys2Proof.Machine

variable {α : Type}

/-- The canonical form as a relation of every two entries. -/
theorem Table.wf_iff_pairwise (t : Table α) : t.wf = true ↔ List.Pairwise (fun p q => p.1 < q.1) t := by
  induction t with
  | nil => simp [Table.wf]
  | cons p rest ih =>
    cases rest with
    | nil => simp [Table.wf]
    | cons q rest =>
      simp only [Table.wf, Bool.and_eq_true, decide_eq_true_eq, ih, List.pairwise_cons, List.mem_cons]
      constructor
      · rintro ⟨hlt, hq, hrest⟩
        refine ⟨?_, hq, hrest⟩
        rintro x (rfl | hx)
        · exact hlt
        · exact Nat.lt_trans hlt (hq x hx)
      · rintro ⟨hp, hq, hrest⟩
        exact ⟨hp q (Or.inl rfl), hq, hrest⟩

@[simp] theorem Table.wf_nil : Table.wf ([] : Table α) = true := rfl

/-- What a put table lists: the new entry and old ones. -/
theorem Table.mem_put {t : Table α} {k : Nat} {v : α} {p : Nat × α} (h : p ∈ t.put k v) : p = (k, v) ∨ p ∈ t := by
  induction t with
  | nil => simpa [Table.put] using h
  | cons q rest ih =>
    simp only [Table.put] at h
    split at h
    · simpa using h
    · split at h
      · simp only [List.mem_cons] at h ⊢
        exact h.imp id Or.inr
      · simp only [List.mem_cons] at h ⊢
        rcases h with rfl | h
        · exact Or.inr (Or.inl rfl)
        · exact (ih h).imp id Or.inr

/-- What a table lists after a deletion stood there before. -/
theorem Table.mem_del {t : Table α} {k : Nat} {p : Nat × α} (h : p ∈ t.del k) : p ∈ t := by
  induction t with
  | nil => simp [Table.del] at h
  | cons q rest ih =>
    simp only [Table.del] at h
    split at h
    · exact List.mem_cons_of_mem _ h
    · simp only [List.mem_cons] at h ⊢
      exact h.imp id ih

theorem Table.put_wf {t : Table α} (k : Nat) (v : α) (h : t.wf = true) : (t.put k v).wf = true := by
  rw [Table.wf_iff_pairwise] at *
  induction t with
  | nil => simp [Table.put]
  | cons q rest ih =>
    have hq := (List.pairwise_cons.mp h).1
    have hrest := (List.pairwise_cons.mp h).2
    simp only [Table.put]
    split
    · next hlt =>
      refine List.pairwise_cons.mpr ⟨?_, h⟩
      intro x hx
      rcases List.mem_cons.mp hx with rfl | hx
      · exact hlt
      · exact Nat.lt_trans hlt (hq x hx)
    · split
      · next heq => exact List.pairwise_cons.mpr ⟨fun x hx => heq ▸ hq x hx, hrest⟩
      · refine List.pairwise_cons.mpr ⟨?_, ih hrest⟩
        intro x hx
        rcases Table.mem_put hx with rfl | hx
        · show q.1 < k
          omega
        · exact hq x hx

theorem Table.del_wf {t : Table α} (k : Nat) (h : t.wf = true) : (t.del k).wf = true := by
  rw [Table.wf_iff_pairwise] at *
  induction t with
  | nil => simp [Table.del]
  | cons q rest ih =>
    have hrest := (List.pairwise_cons.mp h).2
    simp only [Table.del]
    split
    · exact hrest
    · exact List.pairwise_cons.mpr ⟨fun x hx => (List.pairwise_cons.mp h).1 x (Table.mem_del hx), ih hrest⟩

theorem Table.update_wf {t : Table α} (k : Nat) (f : α → α) (h : t.wf = true) : (t.update k f).wf = true := by
  unfold Table.update
  split
  · exact Table.put_wf k _ h
  · exact h

theorem Table.mapAll_wf {t : Table α} (f : α → α) (h : t.wf = true) : (t.mapAll f).wf = true := by
  rw [Table.wf_iff_pairwise] at *
  exact List.pairwise_map.mpr h

theorem Table.mapAt_wf {t : Table α} (f : Nat → α → α) (h : t.wf = true) : (t.mapAt f).wf = true := by
  rw [Table.wf_iff_pairwise] at *
  exact List.pairwise_map.mpr h

theorem Table.keep_wf {t : Table α} (p : Nat → α → Bool) (h : t.wf = true) : (t.keep p).wf = true := by
  rw [Table.wf_iff_pairwise] at *
  exact h.filter _

theorem Table.putRun_wf {t : Table α} (k : Nat) (vs : List α) (h : t.wf = true) : (t.putRun k vs).wf = true := by
  induction vs generalizing t k with
  | nil => exact h
  | cons v vs ih => exact ih (k + 1) (Table.put_wf k v h)

/-! ## Reading after a change -/

@[simp] theorem Table.get_nil (k : Nat) : Table.get ([] : Table α) k = none := rfl

@[simp] theorem Table.get_put_same (t : Table α) (k : Nat) (v : α) : (t.put k v).get k = some v := by
  induction t with
  | nil => simp [Table.put, Table.get]
  | cons q rest ih =>
    simp only [Table.put]
    split
    · simp [Table.get]
    · split <;> simp_all [Table.get]

theorem Table.get_put_other (t : Table α) {k j : Nat} (v : α) (h : j ≠ k) : (t.put k v).get j = t.get j := by
  induction t with
  | nil => simp [Table.put, Table.get, h]
  | cons q rest ih =>
    simp only [Table.put]
    split
    · simp [Table.get, h]
    · split <;> simp_all [Table.get]

theorem Table.get_del_other (t : Table α) {k j : Nat} (h : j ≠ k) : (t.del k).get j = t.get j := by
  induction t with
  | nil => rfl
  | cons q rest ih =>
    simp only [Table.del]
    split <;> simp_all [Table.get]

/-- An index no entry has reads as unlisted. -/
theorem Table.get_of_forall_ne {t : Table α} {k : Nat} (h : ∀ p ∈ t, p.1 ≠ k) : t.get k = none := by
  induction t with
  | nil => rfl
  | cons q rest ih =>
    have hq := h q (List.mem_cons_self ..)
    simp only [Table.get]
    rw [if_neg (fun he => hq he.symm)]
    exact ih (fun p hp => h p (List.mem_cons_of_mem _ hp))

/-- In canonical form a deleted index reads as unlisted. -/
theorem Table.get_del_same {t : Table α} (k : Nat) (h : t.wf = true) : (t.del k).get k = none := by
  rw [Table.wf_iff_pairwise] at h
  induction t with
  | nil => rfl
  | cons q rest ih =>
    have hq := (List.pairwise_cons.mp h).1
    simp only [Table.del]
    split
    · next heq => exact Table.get_of_forall_ne (fun p hp => by have := hq p hp; omega)
    · next hne =>
      simp only [Table.get]
      rw [if_neg hne]
      exact ih (List.pairwise_cons.mp h).2

/-- What a table reads at an index is listed there. -/
theorem Table.mem_of_get {t : Table α} {k : Nat} {v : α} (h : t.get k = some v) : (k, v) ∈ t := by
  induction t with
  | nil => simp at h
  | cons q rest ih =>
    simp only [Table.get] at h
    split at h
    · next heq =>
      cases h
      subst heq
      exact List.mem_cons_self ..
    · exact List.mem_cons_of_mem _ (ih h)

theorem Table.get_update_other (t : Table α) {k j : Nat} (f : α → α) (h : j ≠ k) : (t.update k f).get j = t.get j := by
  unfold Table.update
  split
  · exact Table.get_put_other t _ h
  · rfl

theorem Table.get_update_same (t : Table α) (k : Nat) (f : α → α) : (t.update k f).get k = (t.get k).map f := by
  unfold Table.update
  split
  · next v hv => simp [hv]
  · next hv => simp [hv]

@[simp] theorem Table.get_mapAll (t : Table α) (f : α → α) (k : Nat) : (t.mapAll f).get k = (t.get k).map f := by
  unfold Table.mapAll
  induction t with
  | nil => rfl
  | cons q rest ih =>
    simp only [List.map_cons, Table.get]
    split
    · rfl
    · exact ih

@[simp] theorem Table.get_mapAt (t : Table α) (f : Nat → α → α) (k : Nat) :
    (t.mapAt f).get k = (t.get k).map (f k) := by
  unfold Table.mapAt
  induction t with
  | nil => rfl
  | cons q rest ih =>
    simp only [List.map_cons, Table.get]
    split
    · next h => simp [h]
    · exact ih

end Sys2Proof.Machine
end

