-- ==== Sys2Proof/Laws/Ops.lean ====
section
/-! SUPPORT. What each shared operation can do, once: requests and their answers, notices, counters, stamps, searches of
tables, links by name, and the records of the Insertion Engine. -/

namespace Sys2Proof.Machine

/-! ## Counters and bounded numbers -/

theorem bump_eq (n : Nat) : bump n = min (n + 1) 4294967295 := rfl

theorem bumpBy_eq (k n : Nat) : bumpBy k n = min (n + k) 4294967295 := rfl

theorem clamp_eq {lo hi : Int} (n : Int) (h : lo ≤ hi) : clamp lo hi n = max lo (min hi n) := by
  unfold clamp
  split
  · omega
  · split <;> omega

theorem clamp_bounds {lo hi : Int} (n : Int) (h : lo ≤ hi) : lo ≤ clamp lo hi n ∧ clamp lo hi n ≤ hi := by
  rw [clamp_eq n h]
  omega

/-- A number divided by 256 and rounded: the nearest whole number, halves to even (R9). -/
theorem divRound256_spec (n : Int) :
    2 * (256 * divRound256 n - n).natAbs ≤ 256 ∧
      (2 * (256 * divRound256 n - n).natAbs = 256 → divRound256 n % 2 = 0) := by
  unfold divRound256
  simp only
  split
  · omega
  · split
    · omega
    · split <;> omega

/-- A wrapped difference lies in the half-open range round 0. -/
theorem wrapSigned_range {cycle : Nat} (d : Int) (h : 0 < cycle) :
    -(cycle : Int) ≤ 2 * wrapSigned cycle d ∧ 2 * wrapSigned cycle d < cycle := by
  have hlo := Int.emod_nonneg d (b := (cycle : Int)) (by omega)
  have hhi := Int.emod_lt_of_pos d (b := (cycle : Int)) (by omega)
  unfold wrapSigned
  simp only
  split <;> omega

/-! ## Requests (R185, R186) -/

theorem State.mayHandle_iff (i : Instr) (s : State) : s.mayHandle i = true ↔ s.mayTake i := by
  unfold State.mayHandle State.mayTake
  split <;> simp_all

theorem State.mayHandle_eq_false_iff (i : Instr) (s : State) :
    s.mayHandle i = false ↔ s.control.reply ≠ .none ∧ s.control.reply ≠ .taken i := by
  rw [← Bool.not_eq_true, State.mayHandle_iff]
  unfold State.mayTake
  exact not_or

@[simp] theorem State.answered_ok (kind tag : BitVec 16) (s t : State) (f : Bytes) :
    s.answered kind tag (.ok t f) = t.okWaits kind tag f := rfl

@[simp] theorem State.answered_refuse (kind tag : BitVec 16) (s : State) (code : ResultCode) :
    s.answered kind tag (.refuse code) = s.refusalWaits kind tag code := rfl

/-- A request that can be sent and can be handled now is answered by its block. -/
theorem State.request_handled {i : Instr} (kind tag : BitVec 16) (handle : State → Answer) {s : State}
    (h : s.mayTake i) (hw : i.wellFormed = true) : s.request i kind tag handle = s.answered kind tag (handle s) := by
  unfold State.request
  rw [if_pos ((s.mayHandle_iff i).mpr h), if_pos hw]

/-- A request that cannot be handled now is a busy discard. -/
theorem State.request_busy {i : Instr} (kind tag : BitVec 16) (handle : State → Answer) {s : State}
    (h : ¬s.mayTake i) : s.request i kind tag handle = s.discardBusy := by
  unfold State.request
  rw [if_neg (fun hm => h ((s.mayHandle_iff i).mp hm))]

/-- What a request can come to: its block's answer, FORMAT, or a busy discard. -/
theorem State.request_cases (i : Instr) (kind tag : BitVec 16) (handle : State → Answer) (s : State) :
    s.request i kind tag handle = s.answered kind tag (handle s) ∨
      s.request i kind tag handle = s.refusalWaits kind tag .format ∨ s.request i kind tag handle = s.discardBusy := by
  unfold State.request
  split
  · split
    · exact Or.inl rfl
    · exact Or.inr (Or.inl rfl)
  · exact Or.inr (Or.inr rfl)

/-- A law that a block's answer, the end of a handling and a busy discard keep, a request keeps. -/
theorem State.request_keeps {P : State → Prop} (i : Instr) (kind tag : BitVec 16) (handle : State → Answer) {s : State}
    (hs : P s) (hreply : ∀ (t : State) c, P t → P { t with control := { t.control with reply := c } })
    (hbusy : P s.discardBusy) (hok : ∀ t f, handle s = .ok t f → P t) : P (s.request i kind tag handle) := by
  rcases s.request_cases i kind tag handle with h | h | h <;> rw [h]
  · cases ha : handle s with
    | ok t f => exact hreply t _ (hok t f ha)
    | refuse code => exact hreply s _ hs
  · exact hreply s _ hs
  · exact hbusy

theorem State.requestReady_handled {i : Instr} (kind tag : BitVec 16) (handle : State → State × Bytes) {s : State}
    (h : s.mayTake i) :
    s.requestReady i kind tag handle = (handle s).1.readyReply kind tag .ok (handle s).2 := by
  unfold State.requestReady
  rw [if_pos ((s.mayHandle_iff i).mpr h)]

theorem State.requestReady_busy {i : Instr} (kind tag : BitVec 16) (handle : State → State × Bytes) {s : State}
    (h : ¬s.mayTake i) : s.requestReady i kind tag handle = s.discardBusy := by
  unfold State.requestReady
  rw [if_neg (fun hm => h ((s.mayHandle_iff i).mp hm))]

/-! ## Notices (R190) -/

theorem ControlLink.enqueue_room (n : Notice) {c : ControlLink} (h : c.notices.length < 64) :
    c.enqueue n = { c with notices := c.notices ++ [n] } := by
  unfold ControlLink.enqueue
  rw [if_pos h]

theorem ControlLink.enqueue_full (n : Notice) {c : ControlLink} (h : 64 ≤ c.notices.length) :
    c.enqueue n = { c with noticesLost := true } := by
  unfold ControlLink.enqueue
  rw [if_neg (by omega)]

theorem ControlLink.enqueue_bound (n : Notice) {c : ControlLink} (h : c.notices.length ≤ 64) :
    (c.enqueue n).notices.length ≤ 64 := by
  unfold ControlLink.enqueue
  split
  · simp only [List.length_append, List.length_singleton]
    omega
  · exact h

@[simp] theorem ControlLink.enqueue_reply (n : Notice) (c : ControlLink) : (c.enqueue n).reply = c.reply := by
  unfold ControlLink.enqueue
  split <;> rfl

/-- A notice raised while the queue has room joins its tail. -/
theorem State.raise_room (d : NoticeDetail) {s : State} (h : s.control.notices.length < 64) :
    s.raise d = { s with control := { s.control with notices := s.noticesWith d } } := by
  unfold State.raise
  rw [ControlLink.enqueue_room _ h]
  rfl

/-- A notice raised while the queue is full is dropped, and the notices-lost flag is set. -/
theorem State.raise_full (d : NoticeDetail) {s : State} (h : 64 ≤ s.control.notices.length) :
    s.raise d = { s with control := { s.control with noticesLost := true } } := by
  unfold State.raise
  rw [ControlLink.enqueue_full _ h]

/-- Notices that all have room join the tail in their order. -/
theorem ControlLink.enqueueAll_room (ns : List Notice) {c : ControlLink} (h : c.notices.length + ns.length ≤ 64) :
    c.enqueueAll ns = { c with notices := c.notices ++ ns } := by
  unfold ControlLink.enqueueAll
  induction ns generalizing c with
  | nil => simp
  | cons n ns ih =>
    simp only [List.length_cons] at h
    rw [List.foldl_cons, ControlLink.enqueue_room n (by omega), ih (by simp only [List.length_append, List.length_singleton]; omega)]
    simp

/-- While no second boundary holds notices back, none are to join. -/
theorem State.joinHeld_none {s : State} (h : s.heldNotices = none) : s.joinHeld = s := by
  unfold State.joinHeld
  rw [h]
  cases s
  simp_all [ControlLink.enqueueAll]

/-- While no second boundary holds notices back, a notice of the Time Unit is raised as any other. -/
theorem State.raiseTime_none (d : NoticeDetail) {s : State} (h : s.heldNotices = none) : s.raiseTime d = s.raise d := by
  unfold State.raiseTime
  rw [State.joinHeld_none h]

/-- A notice of the Time Unit raised under a condition, while none is held back and the queue has room: it joins the tail. -/
theorem State.raiseTime_ite (c : Prop) [Decidable c] (d : NoticeDetail) {s : State} (hh : s.heldNotices = none)
    (hr : s.control.notices.length < 64) :
    (if c then s.raiseTime d else s) = { s with control := { s.control with
      notices := s.control.notices ++ (if c then [s.time.noticeOf d] else []) } } := by
  split
  · rw [State.raiseTime_none d hh, State.raise_room d hr]
    rfl
  · rw [List.append_nil]

/-! ## Links by name -/

@[simp] theorem State.link_setLink_same (s : State) (l : Link) (k : LinkState) : (s.setLink l k).link l = k := by
  cases l <;> rfl

@[simp] theorem State.link_setLink_other (s : State) (l : Link) (k : LinkState) :
    (s.setLink l k).link (otherLink l) = s.link (otherLink l) := by
  cases l <;> rfl

@[simp] theorem State.setLink_setLink (s : State) (l : Link) (k k' : LinkState) :
    (s.setLink l k).setLink l k' = s.setLink l k' := by
  cases l <;> rfl

@[simp] theorem State.setLink_self (s : State) (l : Link) : s.setLink l (s.link l) = s := by
  cases l <;> rfl

/-! ## Searches of tables -/

variable {α : Type}

theorem Table.firstSuch_some {t : Table α} {p : Nat → α → Bool} {k : Nat} {v : α} (h : t.firstSuch p = some (k, v)) :
    (k, v) ∈ t ∧ p k v = true := by
  unfold Table.firstSuch at h
  exact ⟨List.mem_of_find?_eq_some h, by simpa using List.find?_some h⟩

theorem Table.firstSuch_none {t : Table α} {p : Nat → α → Bool} (h : t.firstSuch p = none) {k : Nat} {v : α}
    (hm : (k, v) ∈ t) : p k v = false := by
  unfold Table.firstSuch at h
  have := List.find?_eq_none.mp h (k, v) hm
  simpa using this

theorem Table.someSuch_iff {t : Table α} {p : Nat → α → Bool} :
    t.someSuch p = true ↔ ∃ k v, (k, v) ∈ t ∧ p k v = true := by
  unfold Table.someSuch
  rw [List.any_eq_true]
  constructor
  · rintro ⟨⟨k, v⟩, hm, hp⟩
    exact ⟨k, v, hm, hp⟩
  · rintro ⟨k, v, hm, hp⟩
    exact ⟨(k, v), hm, hp⟩

theorem Table.someSuch_eq_false_iff {t : Table α} {p : Nat → α → Bool} :
    t.someSuch p = false ↔ ∀ k v, (k, v) ∈ t → p k v = false := by
  rw [← Bool.not_eq_true, Table.someSuch_iff]
  constructor
  · intro h k v hm
    cases hp : p k v with
    | false => rfl
    | true => exact absurd ⟨k, v, hm, hp⟩ h
  · rintro h ⟨k, v, hm, hp⟩
    rw [h k v hm] at hp
    cases hp

theorem Table.update_of_get {t : Table α} {k : Nat} {v : α} (f : α → α) (h : t.get k = some v) :
    t.update k f = t.put k (f v) := by
  unfold Table.update
  rw [h]

theorem Table.update_of_none {t : Table α} {k : Nat} (f : α → α) (h : t.get k = none) : t.update k f = t := by
  unfold Table.update
  rw [h]

/-- What a canonical table lists is what it reads there. -/
theorem Table.get_of_mem {t : Table α} (h : t.wf = true) {k : Nat} {v : α} (hm : (k, v) ∈ t) : t.get k = some v := by
  rw [Table.wf_iff_pairwise] at h
  induction t with
  | nil => cases hm
  | cons q rest ih =>
    have hq := (List.pairwise_cons.mp h).1
    rcases List.mem_cons.mp hm with he | hm
    · subst he
      simp [Table.get]
    · have := hq _ hm
      simp only [Table.get]
      rw [if_neg (by omega)]
      exact ih (List.pairwise_cons.mp h).2 hm

/-- The second of two puts at one index is what stands. -/
@[simp] theorem Table.put_put (t : Table α) (k : Nat) (v w : α) : (t.put k v).put k w = t.put k w := by
  induction t with
  | nil => simp [Table.put]
  | cons q rest ih =>
    simp only [Table.put]
    split
    · simp [Table.put]
    · split
      · next h => simp [Table.put]
      · next h1 h2 => simp only [Table.put, if_neg h1, if_neg h2, ih]

/-! ## The Insertion Engine -/

/-- What taking the break of a record can do: nothing, unless the record is LOCAL with its break not taken and its channel
plays or stands; then the exit begins (R158). -/
theorem State.takeBreak_local {s : State} {k : Nat} {r : Insertion} {p : Playback} (cause : BreakCause) (result : Result)
    (hr : s.insertions.get k = some r) (hl : r.state = .onLocal) (hb : r.brk = none)
    (hp : s.playOf r.channel = some p) :
    s.takeBreak k cause result =
      s.exitLocal k { r with brk := some (cause, result), timer := some r.returnLimit } { p with stack := [] } cause := by
  unfold State.takeBreak
  simp [hr, hl, hb, hp]

theorem State.takeBreak_not_local {s : State} {k : Nat} {r : Insertion} (cause : BreakCause) (result : Result)
    (hr : s.insertions.get k = some r) (h : r.state ≠ .onLocal ∨ r.brk ≠ none) : s.takeBreak k cause result = s := by
  unfold State.takeBreak
  rw [hr]
  have hfalse : (decide (r.state = .onLocal) && r.brk.isNone) = false := by
    rcases h with h | h
    · simp [h]
    · cases hb : r.brk with
      | none => exact absurd hb h
      | some b => simp
  simp [hfalse]

/-- The record that holds a service is listed, holds it and names it. -/
theorem State.holder_some {s : State} {service k : Nat} {r : Insertion} (h : s.holder service = some (k, r)) :
    (k, r) ∈ s.insertions ∧ r.holds = true ∧ r.service = service := by
  have := Table.firstSuch_some h
  simpa using this

/-- No record holds a service that has no holder. -/
theorem State.holder_none {s : State} {service k : Nat} {r : Insertion} (h : s.holder service = none)
    (hm : (k, r) ∈ s.insertions) (hh : r.holds = true) : r.service ≠ service := by
  have := Table.firstSuch_none h hm
  simpa [hh] using this

theorem Insertion.holds_iff (r : Insertion) :
    r.holds = true ↔ r.state = .primed ∨ r.state = .onLocal ∨ r.state = .returning := by
  unfold Insertion.holds
  simp [or_assoc]

/-- A record holds its service exactly when its state gives the service a splice state other than NETWORK (R140). -/
theorem Insertion.holds_iff_splice (r : Insertion) : r.holds = true ↔ r.state.spliceGiven ≠ .network := by
  rw [Insertion.holds_iff]
  cases r.state <;> simp [RecordState.spliceGiven]

/-! ## Steps -/

/-- A step on an empty queue is what the part does of itself. -/
theorem step_nil {s : State} (h : s.pending = []) : step s = .next s.idle := by
  unfold step
  rw [h]

end Sys2Proof.Machine
end

