-- ==== Sys2Proof/Laws/Bytes.lean ====
section
/-! SUPPORT. Numbers as bytes and back (R201): lengths, values, and fields read where they were written. -/

namespace Sys2Proof.Machine

@[simp] theorem beBytes_length (k n : Nat) : (beBytes k n).length = k := by
  induction k with
  | zero => rfl
  | succ k ih => simp [beBytes, ih]

@[simp] theorem bitsBytes_length {w : Nat} (v : BitVec w) : (bitsBytes v).length = w / 8 := beBytes_length _ _

/-- The value of a run that follows another. -/
theorem beNat_foldl (bs : Bytes) (acc : Nat) :
    bs.foldl (fun acc b => acc * 256 + b.toNat) acc = acc * 256 ^ bs.length + beNat bs := by
  unfold beNat
  induction bs generalizing acc with
  | nil => simp
  | cons b bs ih =>
    simp only [List.foldl_cons, List.length_cons]
    rw [ih, ih (0 * 256 + b.toNat), Nat.pow_succ]
    ring

theorem beNat_append (as bs : Bytes) : beNat (as ++ bs) = beNat as * 256 ^ bs.length + beNat bs := by
  conv_lhs => unfold beNat
  rw [List.foldl_append, beNat_foldl]
  rfl

theorem beNat_cons (b : Byte) (bs : Bytes) : beNat (b :: bs) = b.toNat * 256 ^ bs.length + beNat bs := by
  rw [show b :: bs = [b] ++ bs from rfl, beNat_append]
  simp [beNat]

/-- A run of bytes spells less than its number of values. -/
theorem beNat_lt (bs : Bytes) : beNat bs < 256 ^ bs.length := by
  induction bs with
  | nil => simp [beNat]
  | cons b bs ih =>
    rw [beNat_cons, List.length_cons, Nat.pow_succ]
    have := b.isLt
    nlinarith [Nat.pos_of_ne_zero (show (256 : Nat) ^ bs.length ≠ 0 by positivity)]

/-- A number written in `k` bytes reads back modulo 256^k. -/
theorem beNat_beBytes (k n : Nat) : beNat (beBytes k n) = n % 256 ^ k := by
  induction k with
  | zero => simp [beBytes, beNat, Nat.mod_one]
  | succ k ih =>
    have hm : n % 256 ^ (k + 1) = n % 256 ^ k + 256 ^ k * (n / 256 ^ k % 256) := Nat.mod_mul
    rw [beBytes, beNat_cons, ih, beBytes_length, BitVec.toNat_ofNat, hm]
    exact Nat.add_comm .. |>.trans (by rw [Nat.mul_comm])

theorem beNat_beBytes_of_lt {k n : Nat} (h : n < 256 ^ k) : beNat (beBytes k n) = n := by
  rw [beNat_beBytes, Nat.mod_eq_of_lt h]

/-- A field reads as the run that stands there. -/
theorem fieldNat_at (pre run rest : Bytes) : fieldNat (pre ++ (run ++ rest)) pre.length run.length = beNat run := by
  unfold fieldNat
  rw [List.drop_left, List.take_left]

/-- A field of whole bytes reads back as it was written. -/
theorem fieldBits_at {w : Nat} (hw : 8 * (w / 8) = w) (pre rest : Bytes) (v : BitVec w) (start : Nat)
    (hs : start = pre.length) : fieldBits w (pre ++ (bitsBytes v ++ rest)) start = v := by
  subst hs
  unfold fieldBits
  have h := fieldNat_at pre (bitsBytes v) rest
  rw [bitsBytes_length] at h
  rw [h]
  unfold bitsBytes
  rw [beNat_beBytes_of_lt]
  · simp
  · have hv := v.isLt
    rw [show (256 : Nat) = 2 ^ 8 from rfl, ← Nat.pow_mul, hw]
    exact hv

/-- Runs of one width laid end to end are taken apart again. -/
theorem takeRuns_flatten (w : Nat) (runs : List Bytes) (h : ∀ r ∈ runs, r.length = w) :
    takeRuns w runs.length runs.flatten = runs := by
  induction runs with
  | nil => rfl
  | cons r runs ih =>
    have hr := h r (List.mem_cons_self ..)
    simp only [List.length_cons, List.flatten_cons, takeRuns]
    rw [← hr, List.take_left, List.drop_left, hr, ih (fun x hx => h x (List.mem_cons_of_mem _ hx))]

end Sys2Proof.Machine
end

