-- ==== Sys2Proof/Laws/Idle.lean ====
section
/-! SUPPORT. What the free choices of an empty queue can give (log entry 2): a part of a list in its order, and the whole of
a list in some order. -/

namespace Sys2Proof.Machine

theorem freePart_sublist (count i : Nat) (xs : List Instr) : (freePart count i xs).Sublist xs := by
  induction xs generalizing i with
  | nil => exact .slnil
  | cons x xs ih =>
    unfold freePart
    split
    · exact (ih (i + 1)).cons_cons x
    · exact (ih (i + 1)).cons x

theorem freeInsert_perm (count i : Nat) (x : Instr) (xs : List Instr) : (freeInsert count i x xs).Perm (x :: xs) := by
  cases xs with
  | nil => exact .refl _
  | cons y ys =>
    refine List.perm_insertIdx x (y :: ys) ?_
    have := Nat.mod_lt (Config.freeChoice count i) (show 0 < ys.length + 2 by omega)
    simp only [List.length_cons]
    omega

theorem freeOrder_perm (count i : Nat) (xs : List Instr) : (freeOrder count i xs).Perm xs := by
  induction xs generalizing i with
  | nil => exact .refl _
  | cons x xs ih => exact (freeInsert_perm count i x _).trans ((ih (i + 1)).cons x)

end Sys2Proof.Machine
end

