-- ==== Sys2Proof/Laws/Operands.lean ====
section
/-! SUPPORT. What each reading of a request's fields answers, once: the fields read, exactly within the ranges of the
request's first check, and none outside them. -/

namespace Sys2Proof.Machine

/-! ## One field -/

theorem readFlag_eq (b : Byte) : readFlag b = if b.toNat ≤ 1 then some (decide (b = 1#8)) else none := by
  unfold readFlag
  by_cases h : b.toNat ≤ 1
  · have hb : b = 0#8 ∨ b = 1#8 := by bv_omega
    rcases hb with rfl | rfl <;> rfl
  · rw [if_neg h, if_neg, if_neg] <;> rintro rfl <;> exact h (by decide)

theorem readChoice_eq {α : Type} (first second : α) (b : Byte) :
    readChoice first second b = if b.toNat ≤ 1 then some (if b = 0#8 then first else second) else none := by
  unfold readChoice
  by_cases h : b.toNat ≤ 1
  · have hb : b = 0#8 ∨ b = 1#8 := by bv_omega
    rcases hb with rfl | rfl <;> rfl
  · rw [if_neg h, if_neg, if_neg] <;> rintro rfl <;> exact h (by decide)

theorem readLinks_eq (b : Byte) : readLinks b =
    if b.toNat ≤ 2 then some (if b = 0#8 then .a else if b = 1#8 then .b else .both) else none := by
  unfold readLinks
  by_cases h : b.toNat ≤ 2
  · have hb : b = 0#8 ∨ b = 1#8 ∨ b = 2#8 := by bv_omega
    rcases hb with rfl | rfl | rfl <;> rfl
  · rw [if_neg h, if_neg, if_neg, if_neg] <;> rintro rfl <;> exact h (by decide)

theorem readPlanEntry_eq (b : Byte) : readPlanEntry b =
    if b.toNat ≤ 2 then some (if b = 0#8 then .null else if b = 1#8 then .site else .spare) else none := by
  unfold readPlanEntry
  by_cases h : b.toNat ≤ 2
  · have hb : b = 0#8 ∨ b = 1#8 ∨ b = 2#8 := by bv_omega
    rcases hb with rfl | rfl | rfl <;> rfl
  · rw [if_neg h, if_neg, if_neg, if_neg] <;> rintro rfl <;> exact h (by decide)

theorem readStep_eq (s : StepBody) : readStep s =
    if s.kind.toNat ≤ 3 then some (if s.kind = 0#8 then .play s.clip.toNat
      else if s.kind = 1#8 then .loop s.count.toNat else if s.kind = 2#8 then .next else .hold) else none := by
  unfold readStep
  generalize s.kind = b
  by_cases h : b.toNat ≤ 3
  · have hb : b = 0#8 ∨ b = 1#8 ∨ b = 2#8 ∨ b = 3#8 := by bv_omega
    rcases hb with rfl | rfl | rfl | rfl <;> rfl
  · rw [if_neg h, if_neg, if_neg, if_neg, if_neg] <;> rintro rfl <;> exact h (by decide)

theorem readClass_eq (b : Byte) : readClass b =
    if b.toNat ≤ 4 then some ([StreamClass.service, .shared, .cue, .timing, .drop].getD b.toNat .drop) else none := by
  unfold readClass
  by_cases h : b.toNat ≤ 4
  · have hb : b = 0#8 ∨ b = 1#8 ∨ b = 2#8 ∨ b = 3#8 ∨ b = 4#8 := by bv_omega
    rcases hb with rfl | rfl | rfl | rfl | rfl <;> rfl
  · rw [if_neg h, if_neg, if_neg, if_neg, if_neg, if_neg] <;> rintro rfl <;> exact h (by decide)

theorem readPeriod_iff (n m : Nat) : readPeriod n = some m ↔ n ∈ Config.slotPeriods ∧ n = m := by
  unfold readPeriod
  split <;> simp [*]

theorem readRecord_eq (r : RecordBody) : readRecord r =
    if r.component.toNat ≤ 3 then some (recordOf r.component.toNat r.due.toNat r.flags r.payload) else none := by
  unfold readRecord readRange
  simp only [Nat.zero_le, true_and]
  split <;> rfl

/-! ## Lists -/

/-- A list is read item by item. -/
theorem readAll_some {α β : Type} {read : α → Option β} {f : α → β} (xs : List α)
    (h : ∀ x ∈ xs, read x = some (f x)) : readAll read xs = some (xs.map f) := by
  induction xs with
  | nil => rfl
  | cons x xs ih =>
    rw [readAll, h x (.head _), ih (fun y hy => h y (.tail _ hy))]
    rfl

/-- A list with an item outside its set is not read. -/
theorem readAll_none {α β : Type} {read : α → Option β} (xs : List α) (h : ∃ x ∈ xs, read x = none) :
    readAll read xs = none := by
  induction xs with
  | nil => simp at h
  | cons x xs ih =>
    rw [readAll]
    cases hx : read x with
    | none => rfl
    | some y =>
      rw [ih (by simpa [hx] using h)]

/-- The labels of SERVICE.SET (R53). -/
theorem readLabels_some {labels : List (BitVec 16)} (h1 : 1 ≤ labels.length) (h4 : labels.length ≤ 4)
    (h : ∀ l ∈ labels, l.toNat ≤ 4094) : readLabels labels = some (labels.map BitVec.toNat) := by
  unfold readLabels
  rw [if_pos ⟨h1, h4⟩]
  exact readAll_some labels (fun l hl => if_pos ⟨Nat.zero_le _, h l hl⟩)

theorem readLabels_none {labels : List (BitVec 16)}
    (h : ¬(1 ≤ labels.length ∧ labels.length ≤ 4 ∧ ∀ l ∈ labels, l.toNat ≤ 4094)) : readLabels labels = none := by
  unfold readLabels
  split
  · rename_i k
    have hb : ∃ l ∈ labels, ¬l.toNat ≤ 4094 := by
      by_contra hn
      exact h ⟨k.1, k.2, fun l hl => by_contra (fun hk => hn ⟨l, hl, hk⟩)⟩
    obtain ⟨l, hl, hk⟩ := hb
    exact readAll_none labels ⟨l, hl, if_neg (fun j => hk j.2)⟩
  · rfl

/-- The due offsets of CLIP.WRITE (R123): none falls below the one before it, nor the first below the one held. -/
theorem dueInOrder_iff (last : Option Nat) (records : List ClipRecord) : dueInOrder last records = true ↔
    (∀ i a b, records[i]? = some a → records[i + 1]? = some b → a.due ≤ b.due) ∧
      ∀ l r, last = some l → records.head? = some r → l ≤ r.due := by
  induction records generalizing last with
  | nil => cases last <;> simp [dueInOrder]
  | cons r rs ih =>
    have hs : (∀ i a b, (r :: rs)[i]? = some a → (r :: rs)[i + 1]? = some b → a.due ≤ b.due) ↔
        (∀ i a b, rs[i]? = some a → rs[i + 1]? = some b → a.due ≤ b.due) ∧
          ∀ l x, some r.due = some l → rs.head? = some x → l ≤ x.due := by
      constructor
      · intro h
        refine ⟨fun i a b ha hb => h (i + 1) a b (by simpa using ha) (by simpa using hb), fun l x hl hx => ?_⟩
        injection hl with hl
        subst hl
        exact h 0 r x rfl (by simpa [List.head?_eq_getElem?] using hx)
      · rintro ⟨h, hh⟩ i a b ha hb
        cases i with
        | zero =>
          obtain rfl : r = a := by simpa using ha
          exact hh r.due b rfl (by simpa [List.head?_eq_getElem?] using hb)
        | succ i => exact h i a b (by simpa using ha) (by simpa using hb)
    rw [hs, ← ih]
    cases last with
    | none => simp [dueInOrder]
    | some l => simp [dueInOrder, and_comm]

/-! ## Whole requests -/

/-- TIME.CONFIG (R21). -/
theorem readTimeConfig_eq (b : TimeConfigBody) : readTimeConfig b =
    if b.source.toNat ≤ 1 ∧ b.polarity.toNat ≤ 1 ∧ 1 ≤ b.window.toNat ∧ b.window.toNat ≤ 1000 ∧ 1 ≤ b.qualify.toNat ∧
        b.holdover.toNat ≤ 86400 ∧ b.policy.toNat ≤ 1 then
      some { sourceEnabled := decide (b.source = 0#8), polarity := if b.polarity = 0#8 then .rising else .falling
             kp := b.kp.toNat, ki := b.ki.toNat, window := b.window.toNat, qualify := b.qualify.toNat
             holdoverLimit := b.holdover.toNat, policy := if b.policy = 0#8 then .lockstep else .solo }
    else none := by
  have hq : b.qualify.toNat ≤ 255 := by have := b.qualify.isLt; omega
  unfold readTimeConfig
  simp only [readChoice_eq, readRange, hq, Nat.zero_le, true_and, and_true]
  by_cases h : b.source.toNat ≤ 1 ∧ b.polarity.toNat ≤ 1 ∧ 1 ≤ b.window.toNat ∧ b.window.toNat ≤ 1000 ∧
      1 ≤ b.qualify.toNat ∧ b.holdover.toNat ≤ 86400 ∧ b.policy.toNat ≤ 1
  · rw [if_pos h]
    obtain ⟨h1, h2, h3, h4, h5, h6, h7⟩ := h
    simp [h1, h2, h3, h4, h5, h6, h7]
  · rw [if_neg h]
    by_contra hn
    obtain ⟨x, hx⟩ := Option.ne_none_iff_exists'.mp hn
    simp only [Option.bind_eq_bind, Option.bind_eq_some_iff, Option.ite_none_right_eq_some] at hx
    tauto

/-- SITE.CONFIG (R114). -/
theorem readSiteConfig_eq (b : SiteConfigBody) : readSiteConfig b =
    if b.zone.toNat ≤ 15 ∧ b.period.toNat ∈ [250, 320, 400, 500, 625, 640, 800, 1000, 1250, 1600, 2000] ∧
        -5000000 ≤ b.offset.toInt ∧ b.offset.toInt ≤ 5000000 ∧ b.latency.toNat ≤ 2000000 ∧ b.dn0.toNat ≤ 9999999 ∧
        1000000 ≤ b.holdMax.toNat ∧ b.holdMax.toNat ≤ 15000000 ∧ b.outputEnable.toNat ≤ 1 ∧ b.feedLossMute.toNat ≤ 1 ∧
        1 ≤ b.linkTimeout.toNat ∧ b.linkTimeout.toNat ≤ 1000 then
      some { siteId := b.siteId.toNat, zone := b.zone.toNat, period := b.period.toNat, offset := b.offset.toInt
             latency := b.latency.toNat, dn0 := b.dn0.toNat, holdMax := b.holdMax.toNat
             output := decide (b.outputEnable = 0#8), mute := decide (b.feedLossMute = 0#8)
             linkTimeout := b.linkTimeout.toNat }
    else none := by
  unfold readSiteConfig
  simp only [readChoice_eq, readRange, readSigned, Nat.zero_le, true_and]
  by_cases h : b.zone.toNat ≤ 15 ∧ b.period.toNat ∈ [250, 320, 400, 500, 625, 640, 800, 1000, 1250, 1600, 2000] ∧
      -5000000 ≤ b.offset.toInt ∧ b.offset.toInt ≤ 5000000 ∧ b.latency.toNat ≤ 2000000 ∧ b.dn0.toNat ≤ 9999999 ∧
      1000000 ≤ b.holdMax.toNat ∧ b.holdMax.toNat ≤ 15000000 ∧ b.outputEnable.toNat ≤ 1 ∧ b.feedLossMute.toNat ≤ 1 ∧
      1 ≤ b.linkTimeout.toNat ∧ b.linkTimeout.toNat ≤ 1000
  · rw [if_pos h]
    obtain ⟨h1, h2, h3, h4, h5, h6, h7, h8, h9, h10, h11, h12⟩ := h
    rw [(readPeriod_iff _ _).mpr ⟨h2, rfl⟩]
    simp only [h1, h3, h4, h5, h6, h7, h8, h9, h10, h11, h12, and_self, if_true]
    simp
  · rw [if_neg h]
    by_contra hn
    obtain ⟨x, hx⟩ := Option.ne_none_iff_exists'.mp hn
    simp only [Option.bind_eq_bind, Option.bind_eq_some_iff, Option.ite_none_right_eq_some, readPeriod_iff,
      Config.slotPeriods] at hx
    tauto

/-- STREAM.SET (R50). -/
theorem readStreamSet_eq (b : StreamSetBody) : readStreamSet b =
    if b.index.toNat ≤ 511 ∧ b.label.toNat ≤ 4094 ∧ b.origin.toNat ≤ 15 ∧ b.cls.toNat ≤ 4 ∧
        (b.cls = 0#8 ∨ b.cls = 2#8 → b.service.toNat ≤ 63) then
      some { index := b.index.toNat, label := b.label.toNat, origin := b.origin.toNat
             cls := [StreamClass.service, .shared, .cue, .timing, .drop].getD b.cls.toNat .drop
             service := if b.cls = 0#8 ∨ b.cls = 2#8 then some b.service.toNat else none }
    else none := by
  unfold readStreamSet
  simp only [readClass_eq, readRange, Nat.zero_le, true_and]
  by_cases h : b.index.toNat ≤ 511 ∧ b.label.toNat ≤ 4094 ∧ b.origin.toNat ≤ 15 ∧ b.cls.toNat ≤ 4
  · obtain ⟨h1, h2, h3, h4⟩ := h
    simp only [h1, h2, h3, h4, if_true, true_and]
    have hb : b.cls = 0#8 ∨ b.cls = 1#8 ∨ b.cls = 2#8 ∨ b.cls = 3#8 ∨ b.cls = 4#8 := by bv_omega
    by_cases hs : b.service.toNat ≤ 63 <;> rcases hb with hb | hb | hb | hb | hb <;>
      simp [hb, hs, StreamClass.needsService]
  · have hf : ¬(b.index.toNat ≤ 511 ∧ b.label.toNat ≤ 4094 ∧ b.origin.toNat ≤ 15 ∧ b.cls.toNat ≤ 4 ∧
        (b.cls = 0#8 ∨ b.cls = 2#8 → b.service.toNat ≤ 63)) := fun k => h ⟨k.1, k.2.1, k.2.2.1, k.2.2.2.1⟩
    rw [if_neg hf]
    by_contra hn
    obtain ⟨x, hx⟩ := Option.ne_none_iff_exists'.mp hn
    simp only [Option.bind_eq_bind, Option.bind_eq_some_iff, Option.ite_none_right_eq_some] at hx
    tauto

/-- The last clauses of PLAN.WRITE's first check (R106), once the bank and the entries are read. -/
theorem readPlanWrite_of {b : PlanWriteBody} {entries : List PlanEntry} (hb : b.bank.toNat ≤ 1)
    (he : readAll readPlanEntry b.entries = some entries) : readPlanWrite b =
      if b.first.toNat + entries.length ≤ 1024 ∧
          (b.lengthPresent = 0#8 ∨ (b.lengthPresent = 1#8 ∧ 1 ≤ b.length.toNat ∧ b.length.toNat ≤ 1024)) then
        some (decide (b.bank = 1#8), entries, if b.lengthPresent = 1#8 then some b.length.toNat else none)
      else none := by
  have hk : readBank b.bank = some (decide (b.bank = 1#8)) := by
    have hb : b.bank = 0#8 ∨ b.bank = 1#8 := by bv_omega
    rcases hb with hb | hb <;> rw [hb] <;> rfl
  unfold readPlanWrite
  rw [hk, he]
  simp only [readFlag_eq, readRange]
  by_cases h3 : b.first.toNat + entries.length ≤ 1024
  · by_cases hp : b.lengthPresent = 0#8
    · simp [h3, hp]
    · by_cases hq : b.lengthPresent = 1#8
      · by_cases h4 : 1 ≤ b.length.toNat ∧ b.length.toNat ≤ 1024 <;> simp [h3, hq, h4]
      · have hr : ¬b.lengthPresent.toNat ≤ 1 := by bv_omega
        simp [h3, hr, hp, hq]
  · by_cases hr : b.lengthPresent.toNat ≤ 1 <;> simp [h3, hr]

/-- PLAN.WRITE (R106). -/
theorem readPlanWrite_some {b : PlanWriteBody} (hb : b.bank.toNat ≤ 1) (he : ∀ e ∈ b.entries, e.toNat ≤ 2)
    (hr : b.first.toNat + b.entries.length ≤ 1024)
    (hl : b.lengthPresent = 0#8 ∨ (b.lengthPresent = 1#8 ∧ 1 ≤ b.length.toNat ∧ b.length.toNat ≤ 1024)) :
    readPlanWrite b = some (decide (b.bank = 1#8),
      b.entries.map (fun e => if e = 0#8 then .null else if e = 1#8 then .site else .spare),
      if b.lengthPresent = 1#8 then some b.length.toNat else none) := by
  rw [readPlanWrite_of hb (readAll_some _ (fun e h => (readPlanEntry_eq e).trans (if_pos (he e h)))),
    if_pos ⟨by simpa using hr, hl⟩]

theorem readPlanWrite_none {b : PlanWriteBody} (h : ¬(b.bank.toNat ≤ 1 ∧ (∀ e ∈ b.entries, e.toNat ≤ 2) ∧
    b.first.toNat + b.entries.length ≤ 1024 ∧
    (b.lengthPresent = 0#8 ∨ (b.lengthPresent = 1#8 ∧ 1 ≤ b.length.toNat ∧ b.length.toNat ≤ 1024)))) :
    readPlanWrite b = none := by
  by_cases hb : b.bank.toNat ≤ 1
  · by_cases he : ∀ e ∈ b.entries, e.toNat ≤ 2
    · rw [readPlanWrite_of hb (readAll_some _ (fun e k => (readPlanEntry_eq e).trans (if_pos (he e k)))),
        if_neg (fun k => h ⟨hb, he, by simpa using k.1, k.2⟩)]
    · have hn : readAll readPlanEntry b.entries = none := by
        have hx : ∃ e ∈ b.entries, ¬e.toNat ≤ 2 := by
          by_contra hc
          exact he (fun e k => by_contra (fun j => hc ⟨e, k, j⟩))
        obtain ⟨e, k, j⟩ := hx
        exact readAll_none _ ⟨e, k, (readPlanEntry_eq e).trans (if_neg j)⟩
      unfold readPlanWrite
      rw [hn]
      cases readBank b.bank <;> rfl
  · unfold readPlanWrite readBank
    rw [readChoice_eq, if_neg hb]
    rfl

/-- INSERT.ARM (R141). -/
theorem readInsertArm_eq (n : Nat) (b : InsertArmBody) : readInsertArm n b =
    if b.record.toNat ≤ 15 ∧ b.service.toNat ≤ 63 ∧ b.reel.toNat ≤ 31 ∧
        (b.trigger = 0#8 ∨ (b.trigger = 1#8 ∧ b.slot.toNat < n)) ∧
        (b.endRule = 0#8 ∨ b.endRule = 1#8 ∨ (b.endRule = 2#8 ∧ 1 ≤ b.length.toNat)) ∧
        (b.limitPresent = 0#8 ∨ (b.limitPresent = 1#8 ∧ 1000000 ≤ b.limit.toNat ∧ b.limit.toNat ≤ 50000000)) then
      some { record := b.record.toNat, service := b.service.toNat
             trigger := if b.trigger = 0#8 then .cue b.cueId else .atSlot b.second b.slot.toNat
             reel := b.reel.toNat
             endRule := if b.endRule = 0#8 then .reel else if b.endRule = 1#8 then .cue else .fixed b.length.toNat
             returnLimit := if b.limitPresent = 1#8 then b.limit.toNat else 20000000 }
    else none := by
  have ht : readTrigger n b = if b.trigger = 0#8 ∨ (b.trigger = 1#8 ∧ b.slot.toNat < n) then
      some (if b.trigger = 0#8 then .cue b.cueId else .atSlot b.second b.slot.toNat) else none := by
    unfold readTrigger
    by_cases h0 : b.trigger = 0#8
    · simp [h0]
    · by_cases h1 : b.trigger = 1#8 ∧ b.slot.toNat < n <;> simp [h0, h1]
  have he : readEndRule b = if b.endRule = 0#8 ∨ b.endRule = 1#8 ∨ (b.endRule = 2#8 ∧ 1 ≤ b.length.toNat) then
      some (if b.endRule = 0#8 then .reel else if b.endRule = 1#8 then .cue else .fixed b.length.toNat) else none := by
    unfold readEndRule
    by_cases h0 : b.endRule = 0#8
    · simp [h0]
    · by_cases h1 : b.endRule = 1#8
      · simp [h1]
      · by_cases h2 : b.endRule = 2#8 ∧ 1 ≤ b.length.toNat <;> simp [h0, h1, h2]
  have hl : readLimit b =
      if b.limitPresent = 0#8 ∨ (b.limitPresent = 1#8 ∧ 1000000 ≤ b.limit.toNat ∧ b.limit.toNat ≤ 50000000) then
        some (if b.limitPresent = 1#8 then b.limit.toNat else 20000000) else none := by
    unfold readLimit
    rw [readFlag_eq]
    by_cases h0 : b.limitPresent = 0#8
    · simp [h0]
    · by_cases h1 : b.limitPresent = 1#8
      · by_cases h2 : 1000000 ≤ b.limit.toNat ∧ b.limit.toNat ≤ 50000000 <;> simp [h1, h2, readRange]
      · have hr : ¬b.limitPresent.toNat ≤ 1 := by bv_omega
        simp [h0, h1, hr]
  unfold readInsertArm
  rw [ht, he, hl]
  simp only [readRange, Nat.zero_le, true_and]
  by_cases h : b.record.toNat ≤ 15 ∧ b.service.toNat ≤ 63 ∧ b.reel.toNat ≤ 31 ∧
      (b.trigger = 0#8 ∨ (b.trigger = 1#8 ∧ b.slot.toNat < n)) ∧
      (b.endRule = 0#8 ∨ b.endRule = 1#8 ∨ (b.endRule = 2#8 ∧ 1 ≤ b.length.toNat)) ∧
      (b.limitPresent = 0#8 ∨ (b.limitPresent = 1#8 ∧ 1000000 ≤ b.limit.toNat ∧ b.limit.toNat ≤ 50000000))
  · rw [if_pos h]
    obtain ⟨h1, h2, h3, h4, h5, h6⟩ := h
    simp only [h1, h2, h3, if_true]
    rw [if_pos h4, if_pos h5, if_pos h6]
    rfl
  · rw [if_neg h]
    by_contra hn
    obtain ⟨x, hx⟩ := Option.ne_none_iff_exists'.mp hn
    simp only [Option.bind_eq_bind, Option.bind_eq_some_iff, Option.ite_none_right_eq_some] at hx
    tauto

end Sys2Proof.Machine
end

