-- ==== Sys2Proof/Laws/PerInstr.lean ====
section
/-! SUPPORT. Every well-formed command's words fit a frame: the body of its request holds at most 1,600 bytes (R182). -/

namespace Sys2Proof.Laws

set_option Elab.async false

open Sys2Proof.Machine

/-- The command's frame body is within the length that R182 admits; an event has no body. -/
def RequestWords.Statement (i : Instr) : Prop := i.wellFormed = true → (requestBody i).length ≤ 1600

/-- Runs of one length, joined. -/
theorem length_flatMap_of_runs {α : Type} (f : α → Bytes) (w : Nat) (xs : List α) (h : ∀ x ∈ xs, (f x).length = w) :
    (xs.flatMap f).length = xs.length * w := by
  induction xs with
  | nil => simp
  | cons x xs ih =>
    have hx := h x (by simp)
    have ht := ih (fun y hy => h y (by simp [hy]))
    simp only [List.flatMap_cons, List.length_append, List.length_cons, hx, ht, Nat.succ_mul]
    omega

theorem RequestWords.serviceSet (tag : BitVec 16) (body : ServiceSetBody) :
    RequestWords.Statement (.serviceSet tag body) := fun h => by
  have hl : body.labels.length ≤ 255 := by simpa [Instr.wellFormed] using h
  have hm := length_flatMap_of_runs (fun l : BitVec 16 => bitsBytes l) 2 body.labels
    (fun l _ => by simp [bitsBytes_length])
  simp [requestBody, bitsBytes_length, -List.length_flatMap, hm]
  omega

theorem RequestWords.planWrite (tag : BitVec 16) (body : PlanWriteBody) :
    RequestWords.Statement (.planWrite tag body) := fun h => by
  have hl : body.entries.length ≤ 1592 := by simpa [Instr.wellFormed] using h
  simp [requestBody, bitsBytes_length, beBytes_length]
  omega

theorem RequestWords.sitecellSet (tag : BitVec 16) (cells : List Bytes) :
    RequestWords.Statement (.sitecellSet tag cells) := fun h => by
  have hl : cells.length ≤ 8 ∧ ∀ c ∈ cells, c.length = 184 := by simpa [Instr.wellFormed] using h
  have hm := length_flatMap_of_runs (fun c : Bytes => c) 184 cells hl.2
  have hf : cells.flatten = cells.flatMap (fun c => c) := by simp
  simp only [requestBody, List.length_append, List.length_cons, List.length_nil, hf, hm]
  omega

theorem RequestWords.clipWrite (tag : BitVec 16) (clip : Byte) (first : BitVec 32) (records : List RecordBody) :
    RequestWords.Statement (.clipWrite tag clip first records) := fun h => by
  have hl : records.length ≤ 8 ∧ ∀ r ∈ records, r.payload.length = 180 := by
    simpa [Instr.wellFormed, RecordBody.wellFormed] using h
  have hm := length_flatMap_of_runs RecordBody.bytes 185 records
    (fun r hr => by simp [RecordBody.bytes, bitsBytes_length, hl.2 r hr])
  simp only [requestBody, List.length_append, List.length_cons, List.length_nil, bitsBytes_length, hm]
  omega

theorem RequestWords.reelSet (tag : BitVec 16) (reel : Byte) (steps : List StepBody) :
    RequestWords.Statement (.reelSet tag reel steps) := fun h => by
  have hl : steps.length ≤ 255 := by simpa [Instr.wellFormed] using h
  have hm := length_flatMap_of_runs StepBody.bytes 3 steps (fun r _ => by simp [StepBody.bytes])
  simp only [requestBody, List.length_append, List.length_cons, List.length_nil, hm]
  omega

theorem RequestWords.powerOnReset :
    RequestWords.Statement (.powerOnReset) := fun _ => by
  simp [requestBody]

theorem RequestWords.secondBoundary :
    RequestWords.Statement (.secondBoundary) := fun _ => by
  simp [requestBody]

theorem RequestWords.holdoverExpired :
    RequestWords.Statement (.holdoverExpired) := fun _ => by
  simp [requestBody]

theorem RequestWords.ppsEdge (edge : Edge) :
    RequestWords.Statement (.ppsEdge edge) := fun _ => by
  simp [requestBody]

theorem RequestWords.referenceLost :
    RequestWords.Statement (.referenceLost) := fun _ => by
  simp [requestBody]

theorem RequestWords.cellArrival (link : Link) (byte : Byte) :
    RequestWords.Statement (.cellArrival link byte) := fun _ => by
  simp [requestBody]

theorem RequestWords.runt (link : Link) (byte : Byte) :
    RequestWords.Statement (.runt link byte) := fun _ => by
  simp [requestBody]

theorem RequestWords.overlong (link : Link) (byte : Byte) :
    RequestWords.Statement (.overlong link byte) := fun _ => by
  simp [requestBody]

theorem RequestWords.linkTimeout (link : Link) :
    RequestWords.Statement (.linkTimeout link) := fun _ => by
  simp [requestBody]

theorem RequestWords.cellTake (link : Link) :
    RequestWords.Statement (.cellTake link) := fun _ => by
  simp [requestBody]

theorem RequestWords.releaseComputation :
    RequestWords.Statement (.releaseComputation) := fun _ => by
  simp [requestBody]

theorem RequestWords.timingCell :
    RequestWords.Statement (.timingCell) := fun _ => by
  simp [requestBody]

theorem RequestWords.cueTake :
    RequestWords.Statement (.cueTake) := fun _ => by
  simp [requestBody]

theorem RequestWords.slotBoundary :
    RequestWords.Statement (.slotBoundary) := fun _ => by
  simp [requestBody]

theorem RequestWords.returnLimitExpiry (record : Nat) :
    RequestWords.Statement (.returnLimitExpiry record) := fun _ => by
  simp [requestBody]

theorem RequestWords.transferStart :
    RequestWords.Statement (.transferStart) := fun _ => by
  simp [requestBody]

theorem RequestWords.transferEnd :
    RequestWords.Statement (.transferEnd) := fun _ => by
  simp [requestBody]

theorem RequestWords.syncError (byte : Byte) :
    RequestWords.Statement (.syncError byte) := fun _ => by
  simp [requestBody]

theorem RequestWords.lengthError (byte : Byte) :
    RequestWords.Statement (.lengthError byte) := fun _ => by
  simp [requestBody]

theorem RequestWords.completeFrame (byte : Byte) :
    RequestWords.Statement (.completeFrame byte) := fun _ => by
  simp [requestBody]

theorem RequestWords.replyMadeReady :
    RequestWords.Statement (.replyMadeReady) := fun _ => by
  simp [requestBody]

theorem RequestWords.replyRead (byte : Byte) :
    RequestWords.Statement (.replyRead byte) := fun _ => by
  simp [requestBody]

theorem RequestWords.timeConfig (tag : BitVec 16) (body : TimeConfigBody) :
    RequestWords.Statement (.timeConfig tag body) := fun _ => by
  simp [requestBody, bitsBytes_length]

theorem RequestWords.timeSet (tag : BitVec 16) (second : BitVec 32) :
    RequestWords.Statement (.timeSet tag second) := fun _ => by
  simp [requestBody, bitsBytes_length]

theorem RequestWords.timeRead (tag : BitVec 16) :
    RequestWords.Statement (.timeRead tag) := fun _ => by
  simp [requestBody]

theorem RequestWords.timeClear (tag : BitVec 16) (choice : Byte) :
    RequestWords.Statement (.timeClear tag choice) := fun _ => by
  simp [requestBody]

theorem RequestWords.originSet (tag : BitVec 16) (index : Byte) (valid : Byte) (originId : BitVec 32) (links : Byte) :
    RequestWords.Statement (.originSet tag index valid originId links) := fun _ => by
  simp [requestBody, bitsBytes_length]

theorem RequestWords.originRead (tag : BitVec 16) (index : Byte) :
    RequestWords.Statement (.originRead tag index) := fun _ => by
  simp [requestBody]

theorem RequestWords.streamSet (tag : BitVec 16) (body : StreamSetBody) :
    RequestWords.Statement (.streamSet tag body) := fun _ => by
  simp [requestBody, bitsBytes_length]

theorem RequestWords.streamClear (tag : BitVec 16) (index : BitVec 16) :
    RequestWords.Statement (.streamClear tag index) := fun _ => by
  simp [requestBody, bitsBytes_length]

theorem RequestWords.streamRead (tag : BitVec 16) (index : BitVec 16) :
    RequestWords.Statement (.streamRead tag index) := fun _ => by
  simp [requestBody, bitsBytes_length]

theorem RequestWords.serviceRead (tag : BitVec 16) (index : Byte) :
    RequestWords.Statement (.serviceRead tag index) := fun _ => by
  simp [requestBody]

theorem RequestWords.releaseRead (tag : BitVec 16) :
    RequestWords.Statement (.releaseRead tag) := fun _ => by
  simp [requestBody]

theorem RequestWords.siteConfig (tag : BitVec 16) (body : SiteConfigBody) :
    RequestWords.Statement (.siteConfig tag body) := fun _ => by
  simp [requestBody, bitsBytes_length]

theorem RequestWords.siteRead (tag : BitVec 16) :
    RequestWords.Statement (.siteRead tag) := fun _ => by
  simp [requestBody]

theorem RequestWords.planSwapRequest (tag : BitVec 16) (second : BitVec 32) :
    RequestWords.Statement (.planSwapRequest tag second) := fun _ => by
  simp [requestBody, bitsBytes_length]

theorem RequestWords.planCancel (tag : BitVec 16) :
    RequestWords.Statement (.planCancel tag) := fun _ => by
  simp [requestBody]

theorem RequestWords.planRead (tag : BitVec 16) (bank : Byte) (first : BitVec 16) (count : BitVec 16) :
    RequestWords.Statement (.planRead tag bank first count) := fun _ => by
  simp [requestBody, bitsBytes_length]

theorem RequestWords.sitecellRead (tag : BitVec 16) :
    RequestWords.Statement (.sitecellRead tag) := fun _ => by
  simp [requestBody]

theorem RequestWords.clipDefine (tag : BitVec 16) (body : ClipDefineBody) :
    RequestWords.Statement (.clipDefine tag body) := fun _ => by
  simp [requestBody, bitsBytes_length]

theorem RequestWords.clipClose (tag : BitVec 16) (clip : Byte) :
    RequestWords.Statement (.clipClose tag clip) := fun _ => by
  simp [requestBody]

theorem RequestWords.clipDelete (tag : BitVec 16) (clip : Byte) :
    RequestWords.Statement (.clipDelete tag clip) := fun _ => by
  simp [requestBody]

theorem RequestWords.clipRead (tag : BitVec 16) (clip : Byte) :
    RequestWords.Statement (.clipRead tag clip) := fun _ => by
  simp [requestBody]

theorem RequestWords.reelRead (tag : BitVec 16) (reel : Byte) :
    RequestWords.Statement (.reelRead tag reel) := fun _ => by
  simp [requestBody]

theorem RequestWords.insertArm (tag : BitVec 16) (body : InsertArmBody) :
    RequestWords.Statement (.insertArm tag body) := fun _ => by
  simp [requestBody, bitsBytes_length]

theorem RequestWords.insertCancel (tag : BitVec 16) (record : Byte) :
    RequestWords.Statement (.insertCancel tag record) := fun _ => by
  simp [requestBody]

theorem RequestWords.insertReturn (tag : BitVec 16) (record : Byte) :
    RequestWords.Statement (.insertReturn tag record) := fun _ => by
  simp [requestBody]

theorem RequestWords.insertClear (tag : BitVec 16) (record : Byte) :
    RequestWords.Statement (.insertClear tag record) := fun _ => by
  simp [requestBody]

theorem RequestWords.insertRead (tag : BitVec 16) (record : Byte) :
    RequestWords.Statement (.insertRead tag record) := fun _ => by
  simp [requestBody]

theorem RequestWords.noticeFetch (tag : BitVec 16) :
    RequestWords.Statement (.noticeFetch tag) := fun _ => by
  simp [requestBody]

theorem RequestWords.systemIdentify (tag : BitVec 16) :
    RequestWords.Statement (.systemIdentify tag) := fun _ => by
  simp [requestBody]

theorem RequestWords.statusRead (tag : BitVec 16) :
    RequestWords.Statement (.statusRead tag) := fun _ => by
  simp [requestBody]

theorem RequestWords.countsRead (tag : BitVec 16) (scope : Byte) (index : BitVec 16) (clear : Byte) :
    RequestWords.Statement (.countsRead tag scope index clear) := fun _ => by
  simp [requestBody, bitsBytes_length]

theorem RequestWords.systemRestart (tag : BitVec 16) :
    RequestWords.Statement (.systemRestart tag) := fun _ => by
  simp [requestBody]

theorem RequestWords.linkByte (link : Link) (startOfCell : Bool) (byte : Byte) :
    RequestWords.Statement (.linkByte link startOfCell byte) := fun _ => by
  simp [requestBody]

theorem RequestWords.controlLinkByte (byte : Byte) :
    RequestWords.Statement (.controlLinkByte byte) := fun _ => by
  simp [requestBody]

end Sys2Proof.Laws
end

