-- ==== Sys2Proof/Laws/Reels.lean ====
section
/-! SUPPORT. What the checks of REEL.SET and the pairing of REEL.READ mean of a list of steps (R129, R130, R132). -/

namespace Sys2Proof.Machine

/-! ## Counting steps -/

@[simp] theorem loopSteps_nil : loopSteps [] = 0 := rfl

@[simp] theorem nextSteps_nil : nextSteps [] = 0 := rfl

@[simp] theorem loopSteps_loop (c : Nat) (xs : List ReelStep) : loopSteps (.loop c :: xs) = loopSteps xs + 1 := by
  simp [loopSteps]

@[simp] theorem loopSteps_next (xs : List ReelStep) : loopSteps (.next :: xs) = loopSteps xs := rfl

@[simp] theorem loopSteps_play (c : Nat) (xs : List ReelStep) : loopSteps (.play c :: xs) = loopSteps xs := rfl

@[simp] theorem loopSteps_hold (xs : List ReelStep) : loopSteps (.hold :: xs) = loopSteps xs := rfl

@[simp] theorem nextSteps_loop (c : Nat) (xs : List ReelStep) : nextSteps (.loop c :: xs) = nextSteps xs := rfl

@[simp] theorem nextSteps_next (xs : List ReelStep) : nextSteps (.next :: xs) = nextSteps xs + 1 := by
  simp [nextSteps]

@[simp] theorem nextSteps_play (c : Nat) (xs : List ReelStep) : nextSteps (.play c :: xs) = nextSteps xs := rfl

@[simp] theorem nextSteps_hold (xs : List ReelStep) : nextSteps (.hold :: xs) = nextSteps xs := rfl

/-- A property of every number of steps taken from a list that is not empty. -/
theorem forall_take_cons {p : List ReelStep → Prop} (x : ReelStep) (xs : List ReelStep) :
    (∀ n, p ((x :: xs).take n)) ↔ p [] ∧ ∀ n, p (x :: xs.take n) :=
  ⟨fun h => ⟨h 0, fun n => h (n + 1)⟩, fun h n => by cases n with
    | zero => exact h.1
    | succ n => exact h.2 n⟩

/-! ## Balance (R129) -/

theorem balanced_from (steps : List ReelStep) (d : Nat) : balanced steps d = true ↔
    (∀ n, nextSteps (steps.take n) ≤ loopSteps (steps.take n) + d) ∧ loopSteps steps + d = nextSteps steps := by
  induction steps generalizing d with
  | nil => simp [balanced]
  | cons x xs ih =>
    rw [forall_take_cons (p := fun l => nextSteps l ≤ loopSteps l + d)]
    cases x with
    | play c => simp [balanced, ih]
    | hold => simp [balanced, ih]
    | loop c =>
      simp only [balanced, ih, loopSteps_loop, nextSteps_loop, nextSteps_nil, loopSteps_nil, Nat.zero_le, true_and]
      constructor <;> rintro ⟨h, e⟩ <;> exact ⟨fun n => by have := h n; omega, by omega⟩
    | next =>
      simp only [balanced, ih, loopSteps_next, nextSteps_next, nextSteps_nil, loopSteps_nil, Nat.zero_le, true_and,
        Bool.and_eq_true, decide_eq_true_eq]
      constructor
      · rintro ⟨hd, h, e⟩
        exact ⟨fun n => by have := h n; omega, by omega⟩
      · rintro ⟨h, e⟩
        have h0 := h 0
        simp at h0
        exact ⟨h0, fun n => by have := h n; omega, by omega⟩

/-- The balance check of REEL.SET. -/
theorem balanced_iff (steps : List ReelStep) : balanced steps 0 = true ↔ reelBalanced steps :=
  balanced_from steps 0

/-! ## Depth (R129, R130) -/

theorem depthFits_from (steps : List ReelStep) (d : Nat) (h : balanced steps d = true) : depthFits steps d = true ↔
    ∀ i, i < steps.length → loopSteps (steps.take (i + 1)) + d - nextSteps (steps.take i) ≤ 4 := by
  induction steps generalizing d with
  | nil => simp [depthFits]
  | cons x xs ih =>
    have cut (p : Nat → Prop) : (∀ i, i < (x :: xs).length → p i) ↔ p 0 ∧ ∀ i, i < xs.length → p (i + 1) :=
      ⟨fun h => ⟨h 0 (by simp), fun i hi => h (i + 1) (by simpa using hi)⟩, fun h i hi => by
        cases i with
        | zero => exact h.1
        | succ i => exact h.2 i (by simpa using hi)⟩
    rw [cut (fun i => loopSteps ((x :: xs).take (i + 1)) + d - nextSteps ((x :: xs).take i) ≤ 4)]
    cases x with
    | play c => simp [depthFits, ih d (by simpa [balanced] using h)]
    | hold => simp [depthFits, ih d (by simpa [balanced] using h)]
    | loop c =>
      simp only [depthFits, ih (d + 1) (by simpa [balanced] using h), Bool.and_eq_true, decide_eq_true_eq,
        List.take_succ_cons, List.take_zero, loopSteps_loop, nextSteps_loop, loopSteps_nil, nextSteps_nil]
      constructor <;> rintro ⟨a, b⟩ <;> exact ⟨by omega, fun i hi => by have := b i hi; omega⟩
    | next =>
      simp only [balanced, Bool.and_eq_true, decide_eq_true_eq] at h
      simp only [depthFits, ih (d - 1) h.2, Bool.and_eq_true, decide_eq_true_eq,
        List.take_succ_cons, List.take_zero, loopSteps_next, nextSteps_next, loopSteps_nil, nextSteps_nil]
      constructor <;> rintro ⟨a, b⟩ <;> exact ⟨by omega, fun i hi => by have := b i hi; omega⟩

/-- The depth check of REEL.SET, of balanced steps. -/
theorem depthFits_iff {steps : List ReelStep} (h : reelBalanced steps) :
    depthFits steps 0 = true ↔ ∀ i, stepDepth steps i ≤ 4 := by
  rw [depthFits_from steps 0 ((balanced_iff steps).mpr h)]
  refine ⟨fun hd i => ?_, fun hd i _ => hd i⟩
  by_cases hi : i < steps.length
  · exact hd i hi
  · have := h.2
    unfold stepDepth
    rw [List.take_of_length_le (by omega), List.take_of_length_le (by omega)]
    omega

/-! ## Groups (R129) -/

/-- Step `j` closes the group that stands `k` groups out of the innermost one open before the list. -/
def closesOuter (steps : List ReelStep) (k j : Nat) : Prop :=
  steps[j]? = some .next ∧ nextSteps (steps.take j) = loopSteps (steps.take j) + k ∧
    ∀ n, nextSteps ((steps.take j).take n) ≤ loopSteps ((steps.take j).take n) + k

theorem closesGroup_cons (x : ReelStep) (xs : List ReelStep) (i j : Nat) :
    closesGroup (x :: xs) (i + 1) (j + 1) ↔ closesGroup xs i j := by
  simp [closesGroup, stepsBetween]

theorem closesGroup_head (x : ReelStep) (xs : List ReelStep) (j : Nat) :
    closesGroup (x :: xs) 0 (j + 1) ↔ (∃ c, x = .loop c) ∧ closesOuter xs 0 j := by
  simp only [closesGroup, stepsBetween, closesOuter, reelBalanced, List.getElem?_cons_zero, List.getElem?_cons_succ,
    List.take_succ_cons, List.drop_succ_cons, List.drop_zero, Option.some.injEq, Nat.zero_lt_succ, true_and, Nat.zero_add]
  constructor
  · rintro ⟨a, b, c, d⟩
    exact ⟨a, b, by omega, c⟩
  · rintro ⟨a, b, c, d⟩
    exact ⟨a, b, d, by omega⟩

theorem not_closesGroup_zero (steps : List ReelStep) (i : Nat) : ¬closesGroup steps i 0 := fun h => by
  have := h.1
  omega

theorem closesOuter_loop (c : Nat) (xs : List ReelStep) (k j : Nat) :
    closesOuter (.loop c :: xs) k (j + 1) ↔ closesOuter xs (k + 1) j := by
  simp only [closesOuter, List.getElem?_cons_succ, List.take_succ_cons,
    forall_take_cons (p := fun l => nextSteps l ≤ loopSteps l + k), nextSteps_loop, loopSteps_loop, nextSteps_nil,
    Nat.zero_le, true_and]
  constructor <;> rintro ⟨a, b, h⟩ <;> exact ⟨a, by omega, fun n => by have := h n; omega⟩

theorem closesOuter_plain {x : ReelStep} (h : (∃ c, x = .play c) ∨ x = .hold) (xs : List ReelStep) (k j : Nat) :
    closesOuter (x :: xs) k (j + 1) ↔ closesOuter xs k j := by
  rcases h with ⟨c, rfl⟩ | rfl <;>
    simp [closesOuter, forall_take_cons (p := fun l => nextSteps l ≤ loopSteps l + k)]

theorem closesOuter_next (xs : List ReelStep) (k j : Nat) :
    closesOuter (.next :: xs) k (j + 1) ↔ 0 < k ∧ closesOuter xs (k - 1) j := by
  simp only [closesOuter, List.getElem?_cons_succ, List.take_succ_cons,
    forall_take_cons (p := fun l => nextSteps l ≤ loopSteps l + k), nextSteps_next, loopSteps_next, nextSteps_nil,
    Nat.zero_le, true_and]
  constructor
  · rintro ⟨a, b, h⟩
    have h0 := h 0
    simp at h0
    exact ⟨h0, a, by omega, fun n => by have := h n; omega⟩
  · rintro ⟨hk, a, b, h⟩
    exact ⟨a, by omega, fun n => by have := h n; omega⟩

theorem closesOuter_first (x : ReelStep) (xs : List ReelStep) (k : Nat) :
    closesOuter (x :: xs) k 0 ↔ x = .next ∧ k = 0 := by
  simp [closesOuter, eq_comm]

/-! ## Bodies (R130) -/

/-- A list holds a PLAY or HOLD step. -/
def plays (steps : List ReelStep) : Prop := ∃ x ∈ steps, x = .hold ∨ ∃ clip, x = .play clip

theorem plays_cons (x : ReelStep) (xs : List ReelStep) :
    plays (x :: xs) ↔ (x = .hold ∨ ∃ clip, x = .play clip) ∨ plays xs := by
  simp [plays]

/-- What the fill check means with groups open before the list: every group of the list plays something, and every open
group that the list closes has played already, or plays before it is closed. -/
theorem bodiesFilled_from (steps : List ReelStep) (open_ : List Bool) (h : balanced steps open_.length = true) :
    bodiesFilled steps open_ = true ↔ bodiesHold steps ∧ ∀ k, k < open_.length → ∀ j, closesOuter steps k j →
      (∃ m, m ≤ k ∧ open_[m]? = some true) ∨ plays (steps.take j) := by
  have split (p : Nat → Prop) : (∀ j, p j) ↔ p 0 ∧ ∀ j, p (j + 1) :=
    ⟨fun h => ⟨h 0, fun j => h (j + 1)⟩, fun h j => by cases j with
      | zero => exact h.1
      | succ j => exact h.2 j⟩
  have groups (x : ReelStep) (xs : List ReelStep) : bodiesHold (x :: xs) ↔
      bodiesHold xs ∧ ∀ j, (∃ c, x = .loop c) → closesOuter xs 0 j → plays (xs.take j) := by
    unfold bodiesHold
    rw [split (fun i => ∀ j, closesGroup (x :: xs) i j → _), and_comm]
    refine and_congr (forall_congr' fun i => ?_) ?_
    · rw [split (fun j => closesGroup (x :: xs) (i + 1) j → _)]
      simp only [not_closesGroup_zero, false_implies, true_and, closesGroup_cons]
      rfl
    · rw [split (fun j => closesGroup (x :: xs) 0 j → _)]
      simp only [not_closesGroup_zero, false_implies, true_and, closesGroup_head, and_imp]
      rfl
  have first (b : Bool) (bs : List Bool) (k : Nat) :
      (∃ m, m ≤ k ∧ (true :: bs)[m]? = some true) := ⟨0, Nat.zero_le _, rfl⟩
  induction steps generalizing open_ with
  | nil => simp [bodiesFilled, bodiesHold, closesGroup, closesOuter]
  | cons x xs ih =>
    rw [groups]
    have plain (hx : (∃ c, x = .play c) ∨ x = .hold) (hn : bodiesFilled (x :: xs) open_ = bodiesFilled xs (markFilled open_))
        (hb : balanced xs open_.length = true) : bodiesFilled (x :: xs) open_ = true ↔
        (bodiesHold xs ∧ ∀ j, (∃ c, x = .loop c) → closesOuter xs 0 j → plays (xs.take j)) ∧
          ∀ k, k < open_.length → ∀ j, closesOuter (x :: xs) k j →
            (∃ m, m ≤ k ∧ open_[m]? = some true) ∨ plays ((x :: xs).take j) := by
      have hl : (markFilled open_).length = open_.length := by cases open_ <;> rfl
      rw [hn]
      refine (ih (markFilled open_) (by rw [hl]; exact hb)).trans ?_
      constructor
      · rintro ⟨a, -⟩
        refine ⟨⟨a, fun j hc => ?_⟩, fun k _ j hj => ?_⟩
        · rcases hx with ⟨c, rfl⟩ | rfl <;> obtain ⟨d, hd⟩ := hc <;> cases hd
        · cases j with
          | zero =>
            rw [closesOuter_first] at hj
            rcases hx with ⟨c, rfl⟩ | rfl <;> cases hj.1
          | succ j =>
            right
            rw [List.take_succ_cons, plays_cons]
            rcases hx with ⟨c, rfl⟩ | rfl
            · exact .inl (.inr ⟨c, rfl⟩)
            · exact .inl (.inl rfl)
      · rintro ⟨⟨a, -⟩, -⟩
        refine ⟨a, fun k hk j _ => .inl ?_⟩
        cases open_ with
        | nil => exact absurd hk (Nat.not_lt_zero _)
        | cons b bs => exact first b bs k
    cases x with
    | play c => exact plain (.inl ⟨c, rfl⟩) rfl (by simpa [balanced] using h)
    | hold => exact plain (.inr rfl) rfl (by simpa [balanced] using h)
    | loop c =>
      rw [bodiesFilled]
      refine (ih (false :: open_) (by simpa [balanced] using h)).trans ?_
      constructor
      · rintro ⟨a, b⟩
        refine ⟨⟨a, fun j _ hj => ?_⟩, fun k hk j hj => ?_⟩
        · rcases b 0 (by simp) j hj with ⟨m, hm, he⟩ | hp
          · obtain rfl : m = 0 := by omega
            cases he
          · exact hp
        · cases j with
          | zero => rw [closesOuter_first] at hj; cases hj.1
          | succ j =>
            rw [closesOuter_loop] at hj
            rcases b (k + 1) (by simpa using hk) j hj with ⟨m, hm, he⟩ | hp
            · cases m with
              | zero => cases he
              | succ m => exact .inl ⟨m, by omega, by simpa using he⟩
            · exact .inr (by rw [List.take_succ_cons, plays_cons]; exact .inr hp)
      · rintro ⟨⟨a, g⟩, b⟩
        refine ⟨a, fun k hk j hj => ?_⟩
        cases k with
        | zero => exact .inr (g j ⟨c, rfl⟩ hj)
        | succ k =>
          rcases b k (by simpa using hk) (j + 1) ((closesOuter_loop c xs k j).mpr hj) with ⟨m, hm, he⟩ | hp
          · exact .inl ⟨m + 1, by omega, by simpa using he⟩
          · rw [List.take_succ_cons, plays_cons] at hp
            rcases hp with (hp | ⟨d, hp⟩) | hp
            · cases hp
            · cases hp
            · exact .inr hp
    | next =>
      cases open_ with
      | nil => simp [balanced] at h
      | cons f outer =>
        simp only [balanced, List.length_cons, Nat.add_sub_cancel, Bool.and_eq_true] at h
        have hl : (markFilled outer).length = outer.length := by cases outer <;> rfl
        rw [bodiesFilled, Bool.and_eq_true]
        refine (and_congr Iff.rfl (ih (markFilled outer) (by rw [hl]; exact h.2))).trans ?_
        constructor
        · rintro ⟨rfl, a, -⟩
          exact ⟨⟨a, fun j hc => by obtain ⟨d, hd⟩ := hc; cases hd⟩, fun k _ j _ => .inl (first true outer k)⟩
        · rintro ⟨⟨a, -⟩, b⟩
          refine ⟨?_, a, fun k hk j _ => .inl ?_⟩
          · rcases b 0 (by simp) 0 ((closesOuter_first _ _ _).mpr ⟨rfl, rfl⟩) with ⟨m, hm, he⟩ | ⟨y, hy, -⟩
            · obtain rfl : m = 0 := by omega
              simpa using he
            · simp at hy
          · cases outer with
            | nil => exact absurd hk (Nat.not_lt_zero _)
            | cons o os => exact first o os k

/-- The body check of REEL.SET, of balanced steps. -/
theorem bodiesFilled_iff {steps : List ReelStep} (h : reelBalanced steps) :
    bodiesFilled steps [] = true ↔ bodiesHold steps := by
  rw [bodiesFilled_from steps [] ((balanced_iff steps).mpr h)]
  simp

/-! ## Closing steps (R132) -/

theorem closingStep_spec (steps : List ReelStep) (b d e : Nat) (h : balanced steps e = true) (hd : d < e) :
    ∃ j, closingStep steps b d = some (b + j) ∧ closesOuter steps d j := by
  induction steps generalizing b d e with
  | nil =>
    simp [balanced] at h
    omega
  | cons x xs ih =>
    cases x with
    | play c =>
      obtain ⟨j, a, q⟩ := ih (b + 1) d e (by simpa [balanced] using h) hd
      exact ⟨j + 1, by rw [closingStep, a]; congr 1; omega, (closesOuter_plain (.inl ⟨c, rfl⟩) xs d j).mpr q⟩
    | hold =>
      obtain ⟨j, a, q⟩ := ih (b + 1) d e (by simpa [balanced] using h) hd
      exact ⟨j + 1, by rw [closingStep, a]; congr 1; omega, (closesOuter_plain (.inr rfl) xs d j).mpr q⟩
    | loop c =>
      obtain ⟨j, a, q⟩ := ih (b + 1) (d + 1) (e + 1) (by simpa [balanced] using h) (by omega)
      exact ⟨j + 1, by rw [closingStep, a]; congr 1; omega, (closesOuter_loop c xs d j).mpr q⟩
    | next =>
      simp only [balanced, Bool.and_eq_true, decide_eq_true_eq] at h
      cases d with
      | zero => exact ⟨0, rfl, (closesOuter_first _ _ _).mpr ⟨rfl, rfl⟩⟩
      | succ d =>
        obtain ⟨j, a, q⟩ := ih (b + 1) d (e - 1) h.2 (by omega)
        exact ⟨j + 1, by rw [closingStep, a]; congr 1; omega,
          (closesOuter_next xs (d + 1) j).mpr ⟨Nat.succ_pos _, q⟩⟩

theorem closingSteps_from (steps : List ReelStep) (b e : Nat) (h : balanced steps e = true) :
    (closingSteps steps b).length = loopSteps steps ∧ ∀ i c, steps[i]? = some (.loop c) →
      ∃ j, (closingSteps steps b)[loopSteps (steps.take i)]? = some (b + j) ∧ closesGroup steps i j := by
  induction steps generalizing b e with
  | nil => simp [closingSteps]
  | cons x xs ih =>
    have plain (e' : Nat) (hb : balanced xs e' = true) (hn : closingSteps (x :: xs) b = closingSteps xs (b + 1))
        (hl : ∀ ys, loopSteps (x :: ys) = loopSteps ys) (hx : ∀ c, x ≠ .loop c) :
        (closingSteps (x :: xs) b).length = loopSteps (x :: xs) ∧ ∀ i c, (x :: xs)[i]? = some (.loop c) →
          ∃ j, (closingSteps (x :: xs) b)[loopSteps ((x :: xs).take i)]? = some (b + j) ∧ closesGroup (x :: xs) i j := by
      obtain ⟨a, g⟩ := ih (b + 1) e' hb
      rw [hn, hl]
      refine ⟨a, fun i c hi => ?_⟩
      cases i with
      | zero => exact absurd (by simpa using hi) (hx c)
      | succ i =>
        obtain ⟨j, hj, hg⟩ := g i c (by simpa using hi)
        refine ⟨j + 1, ?_, (closesGroup_cons x xs i j).mpr hg⟩
        rw [List.take_succ_cons, hl, hj]
        congr 1
        omega
    cases x with
    | play c => exact plain e (by simpa [balanced] using h) rfl (fun _ => rfl) (fun _ hc => by cases hc)
    | hold => exact plain e (by simpa [balanced] using h) rfl (fun _ => rfl) (fun _ hc => by cases hc)
    | next =>
      simp only [balanced, Bool.and_eq_true] at h
      exact plain (e - 1) h.2 rfl (fun _ => rfl) (fun _ hc => by cases hc)
    | loop c =>
      have hb : balanced xs (e + 1) = true := by simpa [balanced] using h
      obtain ⟨a, g⟩ := ih (b + 1) (e + 1) hb
      obtain ⟨j0, hj0, hg0⟩ := closingStep_spec xs (b + 1) 0 (e + 1) hb (Nat.succ_pos _)
      have hc : closingSteps (.loop c :: xs) b = (b + 1 + j0) :: closingSteps xs (b + 1) := by
        rw [closingSteps, hj0]
        rfl
      rw [hc]
      refine ⟨by simp [a], fun i d hi => ?_⟩
      cases i with
      | zero => exact ⟨j0 + 1, by simp; omega, (closesGroup_head _ _ _).mpr ⟨⟨c, rfl⟩, hg0⟩⟩
      | succ i =>
        obtain ⟨j, hj, hg⟩ := g i d (by simpa using hi)
        refine ⟨j + 1, ?_, (closesGroup_cons _ xs i j).mpr hg⟩
        rw [List.take_succ_cons, loopSteps_loop, List.getElem?_cons_succ, hj]
        congr 1
        omega

/-- The pairing that REEL.READ reports: one closing step for each LOOP step, in order. -/
theorem closingSteps_spec {steps : List ReelStep} (h : reelBalanced steps) :
    (closingSteps steps 0).length = loopSteps steps ∧ ∀ i c, steps[i]? = some (.loop c) →
      ∃ j, (closingSteps steps 0)[loopSteps (steps.take i)]? = some j ∧ closesGroup steps i j := by
  have := closingSteps_from steps 0 0 ((balanced_iff steps).mpr h)
  simpa using this

end Sys2Proof.Machine
end

