-- ==== Sys2Proof/Laws/TimeUnit.lean ====
section
/-! SUPPORT. What the shared operations of the Time Unit can do, once: the loop update, step states, epoch moves, the users
of a second boundary. -/

namespace Sys2Proof.Machine

/-- The integrator after a loop update (R9 step 1). -/
def TimeUnit.nextIntegrator (e : Int) (t : TimeUnit) : Int :=
  clamp (-134217727) 134217727 (t.integrator + t.config.ki * e)

/-- The steering word after a loop update (R9 steps 2 to 4). -/
def TimeUnit.nextSteering (e : Int) (t : TimeUnit) : Int :=
  clamp (-524288) 524287 (divRound256 (t.config.kp * e + t.nextIntegrator e))

/-- A loop update writes the integrator, the steering word and the word sent; beyond them only limit flags and notices. -/
theorem State.loopUpdate_eq (e : Int) (s : State) : ∃ steerLimit intLimit control held,
    s.loopUpdate e = { s with
      time := { s.time with
        integrator := s.time.nextIntegrator e, steering := s.time.nextSteering e, sentWord := s.time.nextSteering e
        sentCount := s.time.sentCount + 1, steerLimit := steerLimit, intLimit := intLimit }
      control := control
      heldNotices := held } := by
  have hi : ∃ intLimit control held, s.updateIntegrator e = { s with
      time := { s.time with integrator := s.time.nextIntegrator e, intLimit := intLimit }, control := control
      heldNotices := held } := by
    unfold State.updateIntegrator
    simp only
    split
    · exact ⟨_, _, _, rfl⟩
    · exact ⟨_, _, _, rfl⟩
  obtain ⟨intLimit, control, held, hi⟩ := hi
  unfold State.loopUpdate
  rw [hi]
  unfold State.updateSteering
  simp only
  split
  · exact ⟨_, _, _, _, rfl⟩
  · exact ⟨_, _, _, _, rfl⟩

/-- A change of step state writes it, raises its notice and may drop the permit. -/
theorem State.enterStep_eq (new : StepState) (cause : StepCause) (s : State) :
    ∃ control output held, s.enterStep new cause = { s with
      time := { s.time with stepState := new }, control := control, output := output, heldNotices := held } :=
  ⟨_, _, _, rfl⟩

/-- The window test in INSTEP writes the qualify count, and may raise a notice. -/
theorem State.wander_eq (e : Int) (s : State) : ∃ control held, s.wander e = { s with
    time := { s.time with
      qualifyCount := if e.natAbs ≤ s.time.config.window then qualifyUp s.time.qualifyCount else 0 }
    control := control
    heldNotices := held } := by
  unfold State.wander
  split
  · exact ⟨_, _, rfl⟩
  · exact ⟨_, _, rfl⟩

/-- A step state entered while no notice is held back and the queue has room (R20, R23): the STEP notice joins the tail and
the permit follows its condition. -/
theorem State.enterStep_room (new : StepState) (cause : StepCause) {s : State} (hh : s.heldNotices = none)
    (hr : s.control.notices.length < 64) :
    s.enterStep new cause = { s with
      time := { s.time with stepState := new }
      control := { s.control with notices := s.noticesWith (.step s.time.stepState new cause 0) }
      output := { s.output with
        permit := s.output.permit && ({ s with time := { s.time with stepState := new } } : State).permitCondition } } := by
  unfold State.enterStep
  rw [State.raiseTime_none _ (s := { s with time := { s.time with stepState := new } }) hh, State.raise_room]
  · rfl
  · exact hr

/-- A loop update while no notice is held back and the queue has room for two (R9, R10): the limit flags, and INT_LIMIT and
STEER_LIMIT where it sets them. -/
theorem State.loopUpdate_room (e : Int) {s : State} (hh : s.heldNotices = none) (hr : s.control.notices.length < 63) :
    let rawI := s.time.integrator + s.time.config.ki * e
    let rawW := divRound256 (s.time.config.kp * e + s.time.nextIntegrator e)
    s.loopUpdate e = { s with
      time := { s.time with
        integrator := s.time.nextIntegrator e, steering := s.time.nextSteering e, sentWord := s.time.nextSteering e
        sentCount := s.time.sentCount + 1
        steerLimit := s.time.steerLimit || decide (s.time.nextSteering e ≠ rawW)
        intLimit := s.time.intLimit || decide (s.time.nextIntegrator e ≠ rawI) }
      control := { s.control with notices := s.control.notices ++
        (if s.time.nextIntegrator e ≠ rawI ∧ s.time.intLimit = false then
          [s.time.noticeOf (.intLimit e rawI (s.time.nextIntegrator e))] else []) ++
        (if s.time.nextSteering e ≠ rawW ∧ s.time.steerLimit = false then
          [s.time.noticeOf (.steerLimit e rawW (s.time.nextSteering e))] else []) } } := by
  intro rawI rawW
  have hi : s.updateIntegrator e = { s with
      time := { s.time with
        integrator := s.time.nextIntegrator e
        intLimit := s.time.intLimit || decide (s.time.nextIntegrator e ≠ rawI) }
      control := { s.control with notices := s.control.notices ++
        (if s.time.nextIntegrator e ≠ rawI ∧ s.time.intLimit = false then
          [s.time.noticeOf (.intLimit e rawI (s.time.nextIntegrator e))] else []) } } :=
    State.raiseTime_ite _ _ (s := { s with time := { s.time with
      integrator := s.time.nextIntegrator e
      intLimit := s.time.intLimit || decide (s.time.nextIntegrator e ≠ rawI) } }) hh (Nat.lt_succ_of_lt hr)
  unfold State.loopUpdate
  rw [hi]
  refine State.raiseTime_ite _ _ (s := { s with
    time := { s.time with
      integrator := s.time.nextIntegrator e, steering := s.time.nextSteering e, sentWord := s.time.nextSteering e
      sentCount := s.time.sentCount + 1
      steerLimit := s.time.steerLimit || decide (s.time.nextSteering e ≠ rawW)
      intLimit := s.time.intLimit || decide (s.time.nextIntegrator e ≠ rawI) }
    control := { s.control with notices := s.control.notices ++
      (if s.time.nextIntegrator e ≠ rawI ∧ s.time.intLimit = false then
        [s.time.noticeOf (.intLimit e rawI (s.time.nextIntegrator e))] else []) } }) hh ?_
  rw [List.length_append]
  split
  · exact Nat.add_lt_add_right hr 1
  · exact Nat.lt_succ_of_lt hr

/-- The window test in INSTEP while no notice is held back and the queue has room (R14). -/
theorem State.wander_room (e : Int) {s : State} (hh : s.heldNotices = none) (hr : s.control.notices.length < 64) :
    s.wander e = { s with
      time := { s.time with
        qualifyCount := if e.natAbs ≤ s.time.config.window then qualifyUp s.time.qualifyCount else 0 }
      control := { s.control with notices := s.control.notices ++
        (if e.natAbs ≤ s.time.config.window then [] else [s.time.noticeOf (.wander e)]) } } := by
  unfold State.wander
  split
  · rw [List.append_nil]
  · rw [State.raiseTime_none _ hh, State.raise_room _ hr]
    rfl

/-- An epoch move invalidates every anchor, and beyond that can only change the step state, the qualify count, the
countdown, the notices and the permit. -/
theorem State.epochMove_eq (s : State) : ∃ stepState qualifyCount holdover control output held,
    s.epochMove = { s with
      time := { s.time with stepState := stepState, qualifyCount := qualifyCount, holdover := holdover }
      services := s.services.mapAll (fun e => { e with anchor := none })
      control := control
      output := output
      heldNotices := held } ∧ (s.heldNotices = none → held = none) := by
  unfold State.epochMove
  cases hs : s.time.stepState
  · exact ⟨.free, _, _, _, _, _, by simp only [← hs]; rfl, id⟩
  · exact ⟨.acquire, _, _, _, _, _, by simp only [← hs]; rfl, id⟩
  · exact ⟨_, _, _, _, _, _, rfl, fun h => congrArg (Option.map fun _ => []) h⟩
  · exact ⟨_, _, _, _, _, _, rfl, fun h => congrArg (Option.map fun _ => []) h⟩

/-- The holdover countdown at a boundary can only change the step state, the qualify count, itself, the notices and the
permit. -/
theorem State.countHoldover_eq (s : State) : ∃ stepState qualifyCount holdover control output held,
    s.countHoldover = { s with
      time := { s.time with stepState := stepState, qualifyCount := qualifyCount, holdover := holdover }
      control := control
      output := output
      heldNotices := held } ∧ (s.heldNotices = none → held = none) := by
  unfold State.countHoldover
  split
  · split
    · exact ⟨_, _, _, _, _, _, rfl, fun h => congrArg (Option.map fun _ => []) h⟩
    · exact ⟨_, _, _, _, _, _, rfl, id⟩
  all_goals exact ⟨_, _, _, _, _, _, rfl, id⟩

/-- The armed swap at a boundary can only exchange the banks, disarm itself and raise a notice. -/
theorem State.swapAtBoundary_eq (s : State) : ∃ activeOne armedSwap control, s.swapAtBoundary = { s with
    assembler := { s.assembler with activeOne := activeOne, armedSwap := armedSwap }, control := control } := by
  unfold State.swapAtBoundary
  split
  · exact ⟨_, _, _, rfl⟩
  · simp only
    split
    · exact ⟨_, _, _, rfl⟩
    · exact ⟨_, _, _, rfl⟩

/-- What a second boundary writes: beyond site time it can only change the step state, the qualify count, the countdown,
the mismatch count, the pending TIME.SET, anchors, the current slot's second, the banks' roles, the notices and the permit. -/
theorem State.takeSecondBoundary_eq (s : State) :
    ∃ known mismatch stepState qualifyCount holdover services slotSecond activeOne armedSwap control output,
      s.takeSecondBoundary = { s with
        time := { s.time with
          tick := 0, boundaries := s.time.boundaries + 1, second := s.time.pendingSet.getD (s.time.second + 1)
          epochKnown := known, mismatchCount := mismatch, pendingSet := none, stepState := stepState
          qualifyCount := qualifyCount, holdover := holdover }
        services := services
        assembler := { s.assembler with slotSecond := slotSecond, activeOne := activeOne, armedSwap := armedSwap }
        control := control
        output := output
        secondDue := false
        slotDue := true
        heldNotices := none } ∧
      (services = s.services ∨ services = s.services.mapAll (fun e => { e with anchor := none })) := by
  have hb : ∀ u : State, u.heldNotices = none →
      ∃ known mismatch stepState qualifyCount holdover services slotSecond control output,
      u.beginSecond = { u with
        time := { u.time with
          second := u.time.pendingSet.getD (u.time.second + 1), epochKnown := known, mismatchCount := mismatch
          pendingSet := none, stepState := stepState, qualifyCount := qualifyCount, holdover := holdover }
        services := services
        assembler := { u.assembler with slotSecond := slotSecond }
        control := control
        output := output } ∧
      (services = u.services ∨ services = u.services.mapAll (fun e => { e with anchor := none })) := by
    intro u hn
    unfold State.beginSecond
    simp only
    split
    · next h => exact ⟨_, _, _, _, _, _, _, _, _, by simp only [h]; rfl, Or.inl rfl⟩
    · next set h =>
      have ha : ∃ x : Epoch, (if u.time.epochKnown then u.assembler
          else u.assembler.learnEpoch (u.time.second + 1) set) = { u.assembler with slotSecond := x } := by
        split
        · exact ⟨_, rfl⟩
        · exact ⟨_, rfl⟩
      obtain ⟨x, ha⟩ := ha
      rw [ha]
      split
      · obtain ⟨st, q, ho, c, o, held, he, hh⟩ := State.epochMove_eq (State.raise
          (.epoch .set (if u.time.epochKnown = true then some (u.time.second + 1) else none) set)
          { u with
            time := { u.time with second := set, epochKnown := true, mismatchCount := 0, pendingSet := none }
            assembler := { u.assembler with slotSecond := x } })
        obtain rfl := hh hn
        exact ⟨_, _, _, _, _, _, _, _, _, by rw [he, h]; simp only [hn]; rfl, Or.inr rfl⟩
      · exact ⟨_, _, _, _, _, _, _, _, _, by rw [h]; rfl, Or.inl rfl⟩
  unfold State.takeSecondBoundary
  simp only
  obtain ⟨known, mismatch, st, q, ho, sv, x, c, o, hb, hsv⟩ := hb { s with
    time := { s.time with tick := 0, boundaries := s.time.boundaries + 1 }
    secondDue := false, slotDue := true, heldNotices := none } rfl
  rw [hb]
  obtain ⟨st2, q2, ho2, c2, o2, held, hc, hh⟩ := State.countHoldover_eq { s with
    time := { s.time with
      tick := 0, boundaries := s.time.boundaries + 1, second := s.time.pendingSet.getD (s.time.second + 1)
      epochKnown := known, mismatchCount := mismatch, pendingSet := none, stepState := st
      qualifyCount := q, holdover := ho }
    services := sv, assembler := { s.assembler with slotSecond := x }, control := c, output := o
    secondDue := false, slotDue := true, heldNotices := none }
  obtain rfl := hh rfl
  rw [hc]
  obtain ⟨a, w, c3, hs⟩ := State.swapAtBoundary_eq { s with
    time := { s.time with
      tick := 0, boundaries := s.time.boundaries + 1, second := s.time.pendingSet.getD (s.time.second + 1)
      epochKnown := known, mismatchCount := mismatch, pendingSet := none, stepState := st2
      qualifyCount := q2, holdover := ho2 }
    services := sv, assembler := { s.assembler with slotSecond := x }, control := c2, output := o2
    secondDue := false, slotDue := true, heldNotices := none }
  rw [hs]
  exact ⟨_, _, _, _, _, _, _, _, _, _, _, rfl, hsv⟩

/-- A second boundary in ACQUIRE leaves the step state, the qualify count and the countdown as they stand. -/
theorem State.takeSecondBoundary_acquire {s : State} (h : s.time.stepState = .acquire) :
    s.takeSecondBoundary.time.stepState = .acquire ∧
      s.takeSecondBoundary.time.qualifyCount = s.time.qualifyCount ∧
      s.takeSecondBoundary.time.holdover = s.time.holdover := by
  have hm : ∀ u : State, u.time.stepState = .acquire → u.epochMove = u.invalidateAnchors := by
    intro u hu
    unfold State.epochMove
    rw [hu]
  have hb : ∀ u : State, u.time.stepState = .acquire → u.beginSecond.time.stepState = .acquire ∧
      u.beginSecond.time.qualifyCount = u.time.qualifyCount ∧ u.beginSecond.time.holdover = u.time.holdover := by
    intro u hu
    unfold State.beginSecond
    simp only
    split
    · exact ⟨hu, rfl, rfl⟩
    · split
      · rw [hm _ (by exact hu)]
        exact ⟨hu, rfl, rfl⟩
      · exact ⟨hu, rfl, rfl⟩
  have hc : ∀ u : State, u.time.stepState = .acquire → u.countHoldover = u := by
    intro u hu
    unfold State.countHoldover
    rw [hu]
  have hb' := hb { s with
    time := { s.time with tick := 0, boundaries := s.time.boundaries + 1 }
    secondDue := false, slotDue := true, heldNotices := none } h
  unfold State.takeSecondBoundary
  simp only
  rw [hc _ hb'.1]
  obtain ⟨a, w, c, hs⟩ := State.swapAtBoundary_eq (State.beginSecond { s with
    time := { s.time with tick := 0, boundaries := s.time.boundaries + 1 }
    secondDue := false, slotDue := true, heldNotices := none })
  rw [hs]
  exact hb'

end Sys2Proof.Machine
end

