-- ==== Sys2Proof/Tests/Slice0.lean ====
section
/-! SUPPORT. Tests of the model's own work: ill-formed commands that the check refuses, worked cases of the manual, and for
every statement with hypotheses a concrete state that meets them, at the boundary values of its clauses. -/

namespace Sys2Proof.Tests

-- One evaluation at a time: each takes a thread with a stack of its own.
set_option Elab.async false

open Sys2Proof Sys2Proof.Machine

/-! ## Ill-formed commands -/

theorem test_wf_record_index : (Instr.returnLimitExpiry 16).wellFormed = false := by decide

theorem test_wf_service_labels :
    (Instr.serviceSet 0 { index := 0, valid := 1, number := 0, labels := List.replicate 256 0 }).wellFormed = false := by
  decide +kernel

theorem test_wf_plan_entries :
    (Instr.planWrite 0 { bank := 1, first := 0, entries := List.replicate 1593 0, lengthPresent := 0, length := 0
      }).wellFormed = false := by
  decide +kernel

theorem test_wf_carousel_count : (Instr.sitecellSet 0 (List.replicate 9 (List.replicate 184 0))).wellFormed = false := by
  decide +kernel

theorem test_wf_carousel_cell : (Instr.sitecellSet 0 [List.replicate 183 0]).wellFormed = false := by decide +kernel

def shortRecord : RecordBody := { component := 0, due := 0, flags := 0, payload := List.replicate 179 0 }

def wholeRecord : RecordBody := { component := 0, due := 0, flags := 0x40, payload := List.replicate 180 0 }

theorem test_wf_clip_count : (Instr.clipWrite 0 0 0 (List.replicate 9 wholeRecord)).wellFormed = false := by
  decide +kernel

theorem test_wf_clip_payload : (Instr.clipWrite 0 0 0 [shortRecord]).wellFormed = false := by decide +kernel

theorem test_wf_reel_steps :
    (Instr.reelSet 0 0 (List.replicate 256 { kind := 3, clip := 0, count := 0 })).wellFormed = false := by
  decide +kernel

/-! ## Checks and worked cases -/

/-- The bytes of "123456789". -/
def digits : Bytes := [0x31, 0x32, 0x33, 0x34, 0x35, 0x36, 0x37, 0x38, 0x39]

theorem test_crc32_of_digits : crc32 digits = 0xFC891918#32 := by decide +kernel

theorem test_crc16_of_digits : crc16 digits = 0x29B1#16 := by decide +kernel

/-- 00: the modular difference from 639,900,000 to 1,500,000 is 1,600,000. -/
theorem test_modular_difference : stampDiff 1500000 639900000 = 1600000 := by decide +kernel

/-- 01, the rounding of R9: 7,552 gives 30, 7,296 gives 28, -7,552 gives -30. -/
theorem test_rounding : divRound256 7552 = 30 ∧ divRound256 7296 = 28 ∧ divRound256 (-7552) = -30 := by decide +kernel

/-- 05, the hold limit: at P = 250 at most 1,023,999 ticks; at P = 1,600, 10,854,399. -/
theorem test_hold_limit :
    ({ SiteConfig.reset with period := 250, holdMax := 15000000 } : SiteConfig).holdLimit = 1023999 ∧
      ({ SiteConfig.reset with period := 1600, holdMax := 15000000 } : SiteConfig).holdLimit = 10854399 := by
  decide +kernel

/-- 12, the worked notice: a re-adoption at tick 4,000,000 from second 6,400,180 to 6,400,210. -/
theorem test_notice_record :
    Notice.bytes (({ TimeUnit.reset with epochKnown := true, tick := 4000000, second := 6400210#32 } : TimeUnit).noticeOf
      (.epoch .readopted (some 6400180#32) 6400210#32)) =
    [4, 1] ++ beBytes 4 184000000 ++ beBytes 4 6400210 ++ [10, 2, 1] ++ beBytes 4 6400180 ++ beBytes 4 6400210 ++
      [0, 0] := by
  decide +kernel

/-- 05, R81: a stamp of 440,500,000 with Dn 2,500,000 falls in slot 708,800 (11, event 2). -/
theorem test_release_slot :
    ({ State.reset with release := { ReleaseUnit.reset with dn := 2500000 } } : State).releaseSlot 440500000 = 708800 := by
  decide +kernel

/-- 11, events 5 to 7: the walk of LOOP 2, PLAY 12, PLAY 15, NEXT, PLAY 12. -/
def reelThree : List ReelStep := [.loop 2, .play 12, .play 15, .next, .play 12]

theorem test_walk_start : walk reelThree 64 0 [] = (1, [{ bodyStart := 1, remaining := some 2 }], .play 12) := by decide

theorem test_walk_next :
    walk reelThree 64 3 [{ bodyStart := 1, remaining := some 2 }] =
      (1, [{ bodyStart := 1, remaining := some 1 }], .play 12) := by
  decide

theorem test_walk_leaves_loop :
    walk reelThree 64 3 [{ bodyStart := 1, remaining := some 1 }] = (4, [], .play 12) ∧
      walk reelThree 64 5 [] = (5, [], .atEnd) := by
  decide

/-- 04, R63: an advance by 4,096 of a window with every mark seen adds 4,032 lost numbers. -/
theorem test_lost_at_advance : lostAtAdvance (BitVec.allOnes 64) 4096 = 4032 := by decide +kernel

/-- 06, R105: after channel 7 the arbiter begins at channel 0. -/
theorem test_spare_order : spareOrder 7 = [0, 1, 2, 3, 4, 5, 6, 7] ∧ spareOrder 2 = [3, 4, 5, 6, 7, 0, 1, 2] := by decide

/-- 07, R129: a NEXT without its LOOP, and an empty loop body, are found. -/
theorem test_reel_structure :
    balanced [.next] 0 = false ∧ balanced reelThree 0 = true ∧ bodiesFilled [.loop 1, .next] [] = false ∧
      depthFits (List.replicate 5 (.loop 1)) 0 = false := by
  decide

/-- A request reads back from its body, and a body one byte short is refused with FORMAT. -/
theorem test_round_trip_lists :
    readRequest 0x0502#16 7#16 (requestBody (.clipWrite 7 3 9 [wholeRecord, wholeRecord])) =
        .request (.clipWrite 7 3 9 [wholeRecord, wholeRecord]) ∧
      readRequest 0x0102#16 7#16 [0, 0, 0] = .format ∧ readRequest 0x0999#16 7#16 [] = .unknown := by
  decide +kernel

/-- No word spells a command of this block. -/
theorem test_no_words : decodeTableWord 0 0 = none ∧ State.reset.withFetchWord 0 0 = State.reset := ⟨rfl, rfl⟩

/-- The state that a command answers. -/
def after : Host.Outcome State Fault Refusal → State
  | .next t => t
  | .fault _ => State.reset
  | .refused _ => State.reset

/-- From reset, the slot boundary that is due leaves none due, and site time stands. -/
theorem test_slot_boundary_runs :
    (after (exec .slotBoundary State.reset)).slotDue = false ∧ (after (exec .slotBoundary State.reset)).time = .reset := by
  decide +kernel

/-- 06, R95, R96: after a change of P from 250 to 2,000 the current slot 39,999 of second 63 keeps its number until the next
boundary. -/
theorem test_slot_number_after_period :
    let s : State := { State.reset with
      time := { TimeUnit.reset with epochKnown := true, second := 63#32, tick := 9999999 }
      site := { SiteConfig.reset with period := 250 }
      assembler := { Assembler.reset with slot := 39999, slotSecond := 63#32, slotNumber := some 2559999 } }
    (s.applySite { SiteConfig.reset with period := 2000 }).slotNumber = some 2559999 ∧
      (s.applySite { SiteConfig.reset with period := 2000 }).beginSlot.slotNumber = some 319999 := by
  decide +kernel

/-- 08 R139, 01 R4, R18, R19: the current slot 15,999 of second 6, the epoch unknown, at the end of the second. TIME.SET's 100
at the boundary puts the slot in second 99, and so does an adoption of 100 after the boundary, slot 0 not being taken; an
adoption of 100 before the boundary puts it in second 100. -/
theorem test_current_position_learned :
    let s (set : Option Epoch) : State := { State.reset with
      time := { TimeUnit.reset with second := 6#32, tick := 9999999, pendingSet := set }
      assembler := { Assembler.reset with slot := 15999, slotSecond := 6#32 } }
    (s (some 100#32)).takeSecondBoundary.currentPos = some { second := 99#32, slot := 15999 } ∧
      ((s none).takeSecondBoundary.adoptEpoch 100#32).currentPos = some { second := 99#32, slot := 15999 } ∧
      ((s none).adoptEpoch 100#32).currentPos = some { second := 100#32, slot := 15999 } ∧
      (s (some 100#32)).takeSecondBoundary.beginSlot.currentPos = some { second := 100#32, slot := 0 } := by
  decide +kernel

/-- TIME.SET then TIME.SET: the second is refused with PENDING once the first reply is read. -/
theorem test_time_set_pending :
    (after (exec (.timeSet 2 9) { after (exec (.timeSet 1 5) State.reset) with control := .reset })).control.reply =
      .handled 0x0102#16 2 .pending [] := by
  decide +kernel

/-! ## What meets the statements' hypotheses -/

/-- Reset with another Time Unit. -/
def withTime (f : TimeUnit → TimeUnit) : State := { State.reset with time := f State.reset.time }

/-- A SHARED stream of origin 0. -/
def aStreamEntry : StreamEntry :=
  { label := 9, origin := 0, cls := .shared, service := none, merge := .fresh, counts := .zero }

/-- Any notice. -/
def aNotice : Notice := { detail := .wander 0, created := none }

/-- Reset with 64 notices queued. -/
def fullQueue : State :=
  { State.reset with control := { ControlLink.reset with notices := List.replicate 64 aNotice } }

theorem meets_mayTake (i : Instr) : State.reset.mayTake i := .inl rfl

theorem meets_StepFrontOfQueue : ∃ (s : State) (c : Instr), s.pending = [c] :=
  ⟨{ State.reset with pending := [.timeRead 0] }, .timeRead 0, rfl⟩

theorem meets_TimeSetTakesEffect (st : StepState) (known : Bool) (left : Nat) (second : Epoch) :
    let s : State := { State.reset with
      time := { TimeUnit.reset with
        epochKnown := known, second := second, pendingSet := some 5#32, stepState := st, holdover := some left }
      assembler := { Assembler.reset with slotSecond := second }
      secondDue := true }
    s.secondDue = true ∧ s.heldNotices = none ∧ s.time.pendingSet = some 5#32 ∧ s.time.stepState = st ∧
      s.time.epochKnown = known ∧ s.time.holdover = some left ∧ s.time.second = second ∧ 5#32 ≠ 0#32 + 1 ∧
      5#32 = 4#32 + 1 ∧ s.assembler.slotSecond = s.time.second ∧ s.assembler.armedSwap = none ∧
      s.control.notices.length < 63 := by
  exact ⟨rfl, rfl, rfl, rfl, rfl, rfl, rfl, by decide, by decide, rfl, rfl, show 0 < 63 by decide⟩

theorem meets_SecondBoundary :
    let s (st : StepState) (left : Option Nat) : State :=
      { withTime (fun t => { t with stepState := st, holdover := left }) with secondDue := true }
    ((s .free none).heldNotices = none ∧
      ({ s .free none with heldNotices := some [aNotice] } : State).heldNotices = some [aNotice] ∧
      (s .free none).control.notices.length + [aNotice].length ≤ 64) ∧
    ((s .free none).secondDue = true ∧ (s .free none).time.pendingSet = none ∧
      (s .free none).assembler.armedSwap = none ∧ (s .free none).time.stepState ≠ .holdover) ∧
    ((s .holdover (some 2)).time.stepState = .holdover ∧ (s .holdover (some 2)).time.holdover = some 2) ∧
    (s .holdover (some 1)).time.holdover = some 1 ∧ (s .holdover (some 1)).control.notices.length < 64 := by
  decide

theorem meets_EdgesNotQualified :
    let s (i : Nat) : State := withTime (fun t => { t with refEdge := true, interval := i })
    (State.reset.time.config.sourceEnabled = true ∧ Edge.rising = State.reset.time.config.polarity ∧
      State.reset.time.refEdge = false) ∧
    ((s 9998999).time.refEdge = true ∧ (s 9998999).time.interval < 9999000) ∧
    10001000 < (s 10001001).time.interval ∧ Edge.falling ≠ State.reset.time.config.polarity := by
  decide

/-- Reset with a reference edge, so that an edge now has interval `i`. -/
def qualifiedAt (i tick : Nat) (st : StepState) : State :=
  withTime (fun t => { t with refEdge := true, interval := i, tick := tick, stepState := st })

theorem meets_LoopUpdate (st : StepState) (known : Bool) :
    let s := ({ qualifiedAt 9999000 1000 st with
      time := { (qualifiedAt 9999000 1000 st).time with epochKnown := known } } : State)
    s.time.config.sourceEnabled = true ∧ Edge.rising = s.time.config.polarity ∧ s.time.refEdge = true ∧
      9999000 ≤ s.time.interval ∧ s.time.interval ≤ 10001000 ∧
      (1000 : Int) = (if s.time.tick < 5000000 then (s.time.tick : Int) else (s.time.tick : Int) - 10000000) ∧
      (1000 : Int).natAbs ≤ 1000 ∧ s.time.stepState = st ∧ s.time.epochKnown = known ∧ s.heldNotices = none ∧
      s.control.notices.length < 61 ∧ s.time.config.window < (1000 : Int).natAbs ∧ (10 : Int).natAbs ≤ s.time.config.window := by
  cases st <;> cases known <;> decide

/-- A loop update that clamps the integrator and the steering word: at 1,000 ticks with the integrator near its limit, both
flags clear. -/
theorem meets_LoopUpdate_limits :
    let s := ({ qualifiedAt 9999000 1000 .instep with
      time := { (qualifiedAt 9999000 1000 .instep).time with integrator := 134217000 } } : State)
    let t := after (exec (.ppsEdge .rising) s)
    s.time.intLimit = false ∧ s.time.steerLimit = false ∧
      t.time.integrator ≠ s.time.integrator + s.time.config.ki * 1000 ∧ t.time.intLimit = true ∧
      t.time.steering = 524287 ∧ t.time.steerLimit = true ∧
      t.control.notices.map Notice.detail = [.intLimit 1000 134219000 134217727, .steerLimit 1000 524413 524287,
        .wander 1000] := by
  decide +kernel

theorem meets_PhaseStep (st : StepState) :
    let s := qualifiedAt 10001000 1001 st
    let b := qualifiedAt 10001000 9998999 st
    s.time.refEdge = true ∧ s.time.interval ≤ 10001000 ∧ 9999000 ≤ s.time.interval ∧
      (1001 : Int) = (if s.time.tick < 5000000 then (s.time.tick : Int) else (s.time.tick : Int) - 10000000) ∧
      (-1001 : Int) = (if b.time.tick < 5000000 then (b.time.tick : Int) else (b.time.tick : Int) - 10000000) ∧
      1000 < (1001 : Int).natAbs ∧ 1000 < (-1001 : Int).natAbs ∧ s.time.stepState = st ∧ s.heldNotices = none ∧
      s.control.notices.length < 62 ∧ b.time.pendingSet = none ∧ b.assembler.armedSwap = none := by
  cases st <;> decide

/-- An edge half a second early at P = 625 skips slots 8,000 to 15,999: slot 8,000 of second 0 holds a cell of stream 3. -/
theorem meets_PhaseStep_skips :
    let entry : RingEntry := { tag := 8000, stream := 3, origin := 0, cls := .shared, service := none, cell := nullCell }
    let s : State := { qualifiedAt 10000000 5000000 .instep with
      time := { (qualifiedAt 10000000 5000000 .instep).time with epochKnown := true }
      ring := [(8000, entry)], streams := [(3, { aStreamEntry with label := 4095 })] }
    s.ringTagged ∧ s.time.epochKnown = true ∧
      (-5000000 : Int) = (if s.time.tick < 5000000 then (s.time.tick : Int) else (s.time.tick : Int) - 10000000) ∧
      (s.time.tick + s.site.period - 1) / s.site.period = 8000 ∧
      (after (exec (.ppsEdge .rising) s)).ring = [] ∧
      ((after (exec (.ppsEdge .rising) s)).streams.get 3).map (fun x => x.counts.late) = some 1 := by
  refine ⟨?_, rfl, by decide, by decide, by decide +kernel, by decide +kernel⟩
  intro p hp
  simp only [List.mem_singleton] at hp
  subst hp
  rfl

theorem meets_ReferenceLost (st : StepState) :
    let s (limit : Nat) : State := withTime (fun t => { t with
      refTimer := some 0, stepState := st, config := { t.config with holdoverLimit := limit } })
    (s 0).time.refTimer = some 0 ∧ (s 0).time.stepState = st ∧ (s 0).time.config.holdoverLimit = 0 ∧
      0 < (s 1).time.config.holdoverLimit ∧ (s 0).heldNotices = none ∧ (s 0).control.notices.length < 64 := by
  cases st <;> decide

theorem meets_TimeSetAndClear :
    State.reset.time.pendingSet = none ∧ (withTime (fun t => { t with pendingSet := some 1#32 })).time.pendingSet ≠ none ∧
      (2#8 ≠ 0#8 ∧ 2#8 ≠ 1#8) := by
  decide

/-- The ranges of R21, as the statement has them. -/
def timeInRange (b : TimeConfigBody) : Bool := decide (
  b.source.toNat ≤ 1 ∧ b.polarity.toNat ≤ 1 ∧ 1 ≤ b.window.toNat ∧ b.window.toNat ≤ 1000 ∧ 1 ≤ b.qualify.toNat ∧
    b.holdover.toNat ≤ 86400 ∧ b.policy.toNat ≤ 1)

/-- R21's boundaries: the window 0, 1, 1,000 and 1,001, the holdover limit 86,400 and 86,401, the choices 1 and 2, the
qualify limit 0 and 1. -/
theorem meets_TimeConfig :
    let body (source window qualify holdover : Nat) : TimeConfigBody :=
      { source := BitVec.ofNat 8 source, polarity := 1, kp := 0, ki := 255, window := BitVec.ofNat 16 window
        qualify := BitVec.ofNat 8 qualify, holdover := BitVec.ofNat 24 holdover, policy := 1 }
    [body 0 1 1 86400, body 1 1000 255 0].all timeInRange = true ∧
      [body 2 1 1 0, body 0 0 1 0, body 0 1001 1 0, body 0 1 0 0, body 0 1 1 86401].any timeInRange = false ∧
      State.reset.time.config.polarity = .rising ∧ State.reset.time.config.sourceEnabled = true ∧
      (withTime (fun t => { t with stepState := .instep })).time.stepState ≠ .free := by
  decide

/-- The last index of each table and the first beyond it, an empty range of PLAN.READ at 1,024, and a reel whose LOOP steps
close. -/
theorem meets_ReadsChangeNothing :
    (15#8).toNat ≤ 15 ∧ 15 < (16#8).toNat ∧ (511#16).toNat ≤ 511 ∧ 511 < (512#16).toNat ∧ (63#8).toNat ≤ 63 ∧
      63 < (64#8).toNat ∧ (31#8).toNat ≤ 31 ∧ 31 < (32#8).toNat ∧ (1023#16).toNat + (1#16).toNat ≤ 1024 ∧
      (1024#16).toNat + (0#16).toNat ≤ 1024 ∧ 1024 < (1023#16).toNat + (2#16).toNat ∧
      1024 < (1025#16).toNat + (0#16).toNat ∧ (2#8 ≠ 0#8 ∧ 2#8 ≠ 1#8) ∧ reelBalanced reelThree ∧
      reelThree[0]? = some (.loop 2) ∧ closesGroup reelThree 0 3 ∧ closingSteps reelThree 0 = [3] := by
  refine ⟨by decide, by decide, by decide, by decide, by decide, by decide, by decide, by decide, by decide, by decide,
    by decide, by decide, by decide, (balanced_iff _).mp (by decide), rfl,
    ⟨by decide, ⟨2, rfl⟩, rfl, (balanced_iff _).mp (by decide)⟩, by decide⟩

/-- A link in a delineation state. -/
def linkIn (d : Delineation) : State := State.reset.setLink .a { LinkState.reset with delineation := d }

theorem meets_LinkBytes :
    ((linkIn .hunt).link .a).delineation = .hunt ∧ ((linkIn (.trailing true)).link .a).delineation = .trailing true ∧
      ((linkIn (.trailing false)).link .a).delineation = .trailing false ∧
      ((linkIn (.assembling (List.replicate 198 0))).link .a).delineation = .assembling (List.replicate 198 0) ∧
      (List.replicate 198 (0 : Byte)).length < 199 := by
  decide +kernel

/-- A distribution cell with a CRC field: origin id 7, sequence number 1, its head stamp, and an emission cell. -/
def distCell (head : Nat) (crc : BitVec 32) (cell : Bytes) : Bytes :=
  beBytes 4 7 ++ beBytes 4 1 ++ beBytes 4 head ++ beBytes 4 crc.toNat ++ cell

/-- The CRC of such a cell. -/
def distCrc (head : Nat) (cell : Bytes) : BitVec 32 := crc32 (beBytes 4 7 ++ beBytes 4 1 ++ beBytes 4 head ++ cell)

theorem distCell_covered (head : Nat) (crc : BitVec 32) (cell : Bytes) :
    crc32 ((distCell head crc cell).take 12 ++ (distCell head crc cell).drop 16) = distCrc head cell := by
  simp [distCell, distCrc, beBytes]

theorem distCell_crc (head : Nat) (crc : BitVec 32) (cell : Bytes) :
    fieldNat (distCell head crc cell) 12 4 = crc.toNat := by
  have h := fieldNat_at (beBytes 4 7 ++ beBytes 4 1 ++ beBytes 4 head) (beBytes 4 crc.toNat) cell
  simp only [beBytes_length, List.length_append] at h
  have hc : beNat (beBytes 4 crc.toNat) = crc.toNat := beNat_beBytes_of_lt crc.isLt
  simpa [distCell, hc] using h

theorem meets_CellArrives_crc (head : Nat) :
    (crc32 ((distCell head (distCrc head nullCell) nullCell).take 12 ++
        (distCell head (distCrc head nullCell) nullCell).drop 16)).toNat =
      fieldNat (distCell head (distCrc head nullCell) nullCell) 12 4 ∧
    (crc32 ((distCell head (distCrc head nullCell + 1) nullCell).take 12 ++
        (distCell head (distCrc head nullCell + 1) nullCell).drop 16)).toNat ≠
      fieldNat (distCell head (distCrc head nullCell + 1) nullCell) 12 4 := by
  constructor
  · rw [distCell_covered, distCell_crc]
  · rw [distCell_covered, distCell_crc]
    intro h
    have h := BitVec.eq_of_toNat_eq h
    generalize distCrc head nullCell = c at h
    bv_omega

theorem meets_CellArrives_stamp (crc : BitVec 32) :
    fieldNat (distCell 639999999 crc nullCell) 8 4 < 640000000 ∧ 640000000 ≤ fieldNat (distCell 640000000 crc nullCell) 8 4 ∧
      (distCell 0 crc nullCell).length = 200 := by
  have h (n : Nat) : fieldNat (distCell n crc nullCell) 8 4 = n % 256 ^ 4 := by
    have h := fieldNat_at (beBytes 4 7 ++ beBytes 4 1) (beBytes 4 n) (beBytes 4 crc.toNat ++ nullCell)
    simp only [beBytes_length, List.length_append] at h
    simpa [distCell, beNat_beBytes] using h
  refine ⟨by rw [h]; decide, by rw [h]; decide, ?_⟩
  have hn : nullCell.length = 184 := by decide +kernel
  simp only [distCell, List.length_append, beBytes_length, hn]

theorem meets_LinkUpAndDown :
    (State.reset.link .a).up = false ∧ State.reset.control.notices.length < 63 ∧
      (State.reset.link .a).handOn.length < 4 ∧ 64 ≤ fullQueue.control.notices.length ∧
      ((State.reset.setLink .a { LinkState.reset with up := true, timer := some 0 }).link .a).timer = some 0 := by
  decide

/-- A good cell as it is handed on. -/
def aCell (cell : Bytes) (seq : Seq) : GoodCell :=
  { link := .a, originId := 7, seq := seq, headStamp := 0, cell := cell, arrivalTick := 0, arrivalStamp := none
    arrivalBoundaries := 0 }

/-- A stream entry of a class. -/
def aStream (label : Nat) (cls : StreamClass) (m : MergeRecord) : StreamEntry :=
  { label := label, origin := 0, cls := cls, service := some 0, merge := m, counts := .zero }

/-- One origin, one stream of the null label, and one cell that waits on link A. -/
def takeState (cls : StreamClass) (m : MergeRecord) (seq : Seq) : State :=
  { State.reset.setLink .a { LinkState.reset with handOn := [aCell nullCell seq] } with
    origins := [(0, { originId := 7, links := .both })], streams := [(3, aStream 4095 cls m)] }

/-- A record whose highest is 100, with every number but the two below it seen. -/
def someUnseen : MergeRecord := .running 100 (0xFFFFFFFFFFFFFFF9#64)

theorem meets_CellTakeAccepted (cls : StreamClass) :
    let s := takeState cls .fresh 1
    (s.link .a).handOn = [aCell nullCell 1] ∧ originLookup s.origins 7#32 .a = some 0 ∧
      streamLookup s.streams (cellLabel nullCell) 0 = some (3, aStream 4095 cls .fresh) ∧
      mergeCell (aStream 4095 cls .fresh).merge 1 = .accepted (.startAt 1) 0 none ∧
      s.control.notices.length < 64 := by
  cases cls <;> decide +kernel

theorem meets_CellTakeAccepted_jump :
    mergeCell someUnseen 4197 = .accepted (.startAt 4197) 0 (some 100) := by
  decide +kernel

theorem meets_MergeByDistance :
    (101 - 100 : Seq).toInt = 1 ∧ (4196 - 100 : Seq).toInt = 4096 ∧ (100 - 100 : Seq).toInt = 0 ∧
      (99 - 100 : Seq).toInt = -1 ∧ (37 - 100 : Seq).toInt = -63 ∧ (36 - 100 : Seq).toInt = -64 ∧
      (100 - 4196 : Seq).toInt = -4096 ∧ (4197 - 100 : Seq).toInt = 4097 ∧ (100 - 4197 : Seq).toInt = -4097 ∧
      (0x80000064 - 100 : Seq).toInt = -2147483648 ∧ (0xFFFFFFFFFFFFFFF9#64).getLsbD 1 = false ∧
      (0xFFFFFFFFFFFFFFF9#64).getLsbD 63 = true := by
  decide +kernel

theorem meets_Lookups :
    let origins : Table OriginEntry := [(2, { originId := 7, links := .a })]
    let streams : Table StreamEntry := [(5, aStream 9 .shared .fresh)]
    originLookup origins 7 .a = some 2 ∧ originLookup origins 7 .b = none ∧
      streamLookup streams 9 0 = some (5, aStream 9 .shared .fresh) ∧ streamLookup streams 9 1 = none := by
  decide

theorem meets_CellTakeDiscards :
    let s := takeState .shared someUnseen 100
    let stranger := ({ s with origins := [] } : State)
    (s.link .a).handOn = [aCell nullCell 100] ∧ originLookup stranger.origins 7#32 .a = none ∧
      (stranger.link .a).unknownFlag = false ∧
      ((stranger.setLink .a { stranger.link .a with unknownFlag := true }).link .a).unknownFlag = true ∧
      originLookup s.origins 7#32 .a = some 0 ∧ streamLookup [] (cellLabel nullCell) 0 = none ∧
      mergeCell someUnseen 100 = .duplicate ∧ mergeCell someUnseen 36 = .stale := by
  decide +kernel

theorem meets_OriginSet :
    let s := takeState .shared .fresh 1
    (15 < (16#8).toNat ∧ (15#8).toNat ≤ 15 ∧ (2#8).toNat ≤ 2 ∧ 2 < (3#8).toNat ∧ (2#8 ≠ 0#8 ∧ 2#8 ≠ 1#8)) ∧
      (∃ j e, (j, e) ∈ s.origins ∧ j ≠ (15#8).toNat ∧ e.originId = 7#32) ∧
      (¬∃ j e, (j, e) ∈ s.origins ∧ j ≠ (15#8).toNat ∧ e.originId = 8#32) ∧
      ((s.origins.get (0#8).toNat).isSome = true ∧ ∃ j e, (j, e) ∈ s.streams ∧ e.origin = (0#8).toNat) ∧
      ¬((s.origins.get (15#8).toNat).isSome = true ∧ ∃ j e, (j, e) ∈ s.streams ∧ e.origin = (15#8).toNat) := by
  refine ⟨by decide, ⟨0, _, .head _, by decide, rfl⟩, ?_, ⟨by decide, 3, _, .head _, rfl⟩, by simp [takeState, Table.get]⟩
  rintro ⟨j, e, h, _, he⟩
  simp only [takeState, List.mem_singleton, Prod.mk.injEq] at h
  rw [h.2] at he
  exact absurd he (by decide)

/-- A service with one component, label 100. -/
def aService (splice : SpliceState) (active : Option Nat) : ServiceEntry :=
  { number := 1, components := [{ label := 100, continuity := 3, emittedYet := true, awaitDisc := true }]
    anchor := some { clock := 1000, slot := 0 }, splice := splice, active := active, replaced := 0, localCells := 0
    nulls := 0 }

/-- One origin, and service 0 with its splice state. -/
def streamState (splice : SpliceState) : State :=
  { State.reset with
    origins := [(0, { originId := 7, links := .both })], services := [(0, aService splice none)]
    streams := [(1, aStream 100 .service .fresh)] }

/-- The ranges of R50, as the statement has them. -/
def streamInRange (b : StreamSetBody) : Bool := decide (
  b.index.toNat ≤ 511 ∧ b.label.toNat ≤ 4094 ∧ b.origin.toNat ≤ 15 ∧ b.cls.toNat ≤ 4 ∧
    (b.cls = 0#8 ∨ b.cls = 2#8 → b.service.toNat ≤ 63))

theorem meets_StreamSetAndClear_ranges :
    [⟨511, 4094, 15, 0, 63⟩, ⟨0, 0, 0, 4, 64⟩].all streamInRange = true ∧
      [⟨512, 0, 0, 4, 0⟩, ⟨0, 4095, 0, 4, 0⟩, ⟨0, 0, 16, 4, 0⟩, ⟨0, 0, 0, 5, 0⟩, ⟨0, 0, 0, 2, 64⟩].any streamInRange =
        false := by
  decide

theorem meets_StreamSetAndClear :
    let n := streamState .network
    let p := streamState .primed
    (n.origins.get 15 = none ∧ n.origins.get 0 ≠ none) ∧
      ((∃ q ∈ n.streams, q.1 ≠ 2 ∧ q.2.label = 100 ∧ q.2.origin = 0) ∧ ¬∃ q ∈ n.streams, q.1 ≠ 1 ∧ q.2.label = 100) ∧
      (n.services.get 1 = none ∧ (n.services.get 0).map ServiceEntry.labels = some [100]) ∧
      (p.spliceOf 0 ≠ .network ∧ n.spliceOf 0 = .network) ∧ 511 < (512#16).toNat ∧
      p.streams.get (1#16).toNat = some (aStream 100 .service .fresh) ∧ StreamClass.service.needsService = true := by
  decide

/-- The range of a service's labels (R53), as the statement has it. -/
def labelsInRange (labels : List (BitVec 16)) : Bool :=
  decide (1 ≤ labels.length ∧ labels.length ≤ 4) && labels.all (fun l => decide (l.toNat ≤ 4094))

theorem meets_ServiceSet_ranges :
    [[100, 4094], [1, 2, 3, 4]].all labelsInRange = true ∧
      [[], [4095], [1, 2, 3, 4, 5]].any labelsInRange = false := by
  decide

theorem meets_ServiceSet :
    let n := streamState .network
    63 < (64#8).toNat ∧ ¬([100, 100] : List Nat).Nodup ∧ ([100, 4094] : List Nat).Nodup ∧
      (streamState .primed).spliceOf 0 ≠ .network ∧
      (∃ p ∈ n.streams, p.2.cls = .service ∧ p.2.service = some 0 ∧ p.2.label ≠ 4094) ∧
      (∃ p ∈ n.services, p.1 ≠ 1 ∧ p.2.labels = [100]) ∧
      (∃ p ∈ n.streams, p.2.cls.needsService = true ∧ p.2.service = some 0) ∧
      State.reset.services.get 0 = none ∧ State.reset.streams = [] ∧ State.reset.insertions = [] := by
  decide

/-! ### Release -/

/-- A handed cell of stream 3, origin 0. -/
def aHanded (cell : Bytes) (cls : StreamClass) (head : Nat) (arrival : Option Nat) : HandedCell :=
  { item := { aCell cell 1 with headStamp := head, arrivalStamp := arrival }
    stream := 3, origin := 0, cls := cls, service := some 0 }

theorem meets_UntimedCellDiscarded :
    let h := aHanded nullCell .shared 0 none
    let s := ({ takeState .shared .fresh 1 with toRelease := [h] } : State)
    s.toRelease = [h] ∧ h.item.arrivalStamp = none ∧ s.streams.get h.stream = some (aStream 4095 .shared .fresh) ∧
      (aStream 4095 .shared .fresh).origin = h.origin ∧ (aStream 4095 .shared .fresh).label = cellLabel h.item.cell ∧
      (aStream 4095 .shared .fresh).cls = h.cls := by
  decide +kernel

theorem meets_ReleaseComputation :
    let s := withTime (fun t => { t with epochKnown := true })
    (1000000 : Int) = ((0 : Int) + s.release.dn + s.release.offset - s.site.latency) % 640000000 ∧
      1600 = 1000000 / s.site.period ∧ stampDiff (1600 * 625) 998751 < 2 * 625 ∧
      2 * 625 ≤ stampDiff (1600 * 625) 998750 ∧ (s.site.holdLimit : Int) < stampDiff (1600 * 625) 630999999 ∧
      stampDiff (1600 * 625) 631000000 ≤ s.site.holdLimit ∧ stampDiff (1600 * 625) 1000000 ≤ 0 ∧
      0 < stampDiff (1600 * 625) 999999 ∧ s.ring.get (1600 % 65536) = none ∧ s.time.epochKnown = true ∧
      (Table.get (α := Nat) [(1600, 0)] (1600 % 65536)).isSome = true := by
  decide +kernel

/-- A TIMING payload with one override record for a site. -/
def timingPayload (x dn : Nat) (n : Byte) (site : Nat) (offset : Int) : Bytes :=
  beBytes 4 x ++ beBytes 4 dn ++ [n] ++ beBytes 2 site ++ beInt 4 offset ++ List.replicate 165 0

theorem meets_TimingCell :
    let p := timingPayload 65 9999999 1 0 6000000
    let q := timingPayload 65 10000000 9 1 0
    (byteAt p 8).toNat ≤ 8 ∧ fieldNat p 4 4 ≤ 9999999 ∧ (BitVec.ofNat 32 (fieldNat p 0 4)).toNat % 64 = 10000000 / 10000000 ∧
      (BitVec.ofNat 32 (fieldNat p 0 4)).toNat % 64 ≠ 9999999 / 10000000 ∧ 8 < (byteAt q 8).toNat ∧
      9999999 < fieldNat q 4 4 ∧ fieldNat p (9 + 6 * 0) 2 = State.reset.site.siteId ∧
      fieldNat q (9 + 6 * 0) 2 ≠ State.reset.site.siteId ∧ State.reset.time.epochKnown = false ∧
      State.reset.time.mismatchCount < 2 ∧ (65#32 + 1#32 ≠ State.reset.time.second) ∧
      State.reset.assembler.slotSecond = State.reset.time.second ∧
      (let s := withTime (fun t => { t with second := 1#32 }); s.assembler.slotSecond + 1 = s.time.second) ∧
      2 ≤ (withTime (fun t => { t with mismatchCount := 2, epochKnown := true, stepState := .holdover })).time.mismatchCount := by
  decide +kernel

/-! ### Slots -/

/-- Epoch known, output enabled, slot 0 of second 0 due, service 0 in NETWORK, and one entry in the ring. -/
def slotState (cls : StreamClass) (splice : SpliceState) (cell : Bytes) : State :=
  { withTime (fun t => { t with epochKnown := true }) with
    site := { SiteConfig.reset with output := true }
    services := [(0, aService splice none)]
    ring := [(0, { tag := 0, stream := 3, origin := 0, cls := cls, service := some 0, cell := cell })] }

theorem meets_SlotYieldsOneCell :
    State.reset.slotDue = true ∧ State.reset.site.output = false ∧
      (slotState .shared .network nullCell).slotDue = true ∧ (slotState .shared .network nullCell).site.output = true ∧
      State.reset.secondDue = false ∧ State.reset.heldNotices = none ∧
      (let due : State := { State.reset with secondDue := true }
       due.slotDue = true ∧ due.secondDue = true ∧ due.heldNotices = none) ∧
      ({ State.reset with heldNotices := some [aNotice] } : State).heldNotices ≠ none := by
  decide +kernel

theorem meets_SlotYieldsOneCell_take :
    let s := slotState .shared .network nullCell
    State.reset.slotNumber = none ∧ s.slotNumber = some 0 ∧ (s.ring.get (0 % 65536)).map RingEntry.tag = some 0 ∧
      ({ s with ring := [] } : State).ring.get (0 % 65536) = none ∧
      (({ s with ring := s.ring.mapAll (fun e => { e with tag := 65536 }) } : State).ring.get 0).map RingEntry.tag ≠
        some 0 := by
  decide +kernel

/-- A CLOCK cell of label 100. -/
def clockCell : Bytes := Machine.formCell 100 5 true true false false (List.replicate 180 0)

theorem meets_NetworkCellsPassedOn (cls : StreamClass) :
    let s := slotState cls .network clockCell
    s.slotDue = true ∧ s.secondDue = false ∧ s.insertions = [] ∧ s.time.epochKnown = true ∧ s.site.output = true ∧
      0 = (s.time.second.toNat % 64 * 10000000 + s.time.tick) / s.site.period ∧
      (s.ring.get (0 % 65536)).map RingEntry.tag = some 0 ∧ (s.ring.get (0 % 65536)).map RingEntry.cls = some cls ∧
      clockCell.length = 184 ∧ s.services.get 0 = some (aService .network none) ∧
      (aService .network none).splice = .network ∧ cellIsClock clockCell = true ∧
      (aService .network none).clockLabel = some (cellLabel clockCell) ∧
      (aService .network none).components.any (fun c => decide (c.label = cellLabel clockCell) && c.awaitDisc) = true ∧
      cellIsClock nullCell = false ∧ (aService .primed none).splice = .primed ∧
      ({ s with services := [] } : State).services.get 0 = none := by
  cases cls <;> decide +kernel

/-- An insertion record of service 0 in a state, on channel 0, with reel 2. -/
def aRecord (st : RecordState) : Insertion :=
  { state := st, result := none, service := 0, trigger := .cue 7, matched := some 7, reel := 2, endRule := .cue
    returnLimit := 20000000, splice := some { second := 0, slot := 0 }, channel := some 0, breakSlot := none, brk := none
    startSlot := none, endSlot := none, localCells := 0, nulls := 0, timer := none }

/-- A play of clip 12 from slot 0 of second 0, at its cell `next`. -/
def aPlay (clip : Option Nat) (next : Nat) (exit : Bool) : Playback :=
  { cursor := 0, stack := [], clip := clip, nextCell := next, clipStart := some { second := 0, slot := 0 }, clipEnd := none
    clock := 1000, offset := some 10, exitPending := exit, lastLag := none, lagNoticed := false, started := [] }

/-- Clip 12: two cells, due at 0 and 8, the first of them a START cell. -/
def aClip : ClipEntry :=
  { ready := true, base := 0, capacity := 2, duration := 16, clock := 0, period := 625, written := 2, lastDue := some 8
    highest := some 0, pins := 1 }

def aClipCell (due : Nat) (start : Bool) : ClipRecord :=
  { component := 0, due := due, clock := false, start := start, stamped := false, payload := List.replicate 180 0 }

/-- Record 4 in a state with its service, its channel, its reel and its clip; the current slot is slot 0 of second 0. -/
def held (r : Insertion) (p : Option Playback) : State :=
  { withTime (fun t => { t with epochKnown := true }) with
    services := [(0, aService r.state.spliceGiven (some 4))], insertions := [(4, r)]
    channels := [(0, { record := 4, play := p })], clips := [(12, aClip)]
    clipCells := [(0, aClipCell 0 true), (1, aClipCell 8 false)], reels := [(2, { steps := [.play 12], uses := 1 })] }

theorem meets_SplicedAndPlanCells :
    let r := { aRecord .returning with brk := some (.endRule, .complete) }
    let l := held (aRecord .onLocal) (some (aPlay (some 12) 0 false))
    let b := held r (some (aPlay none 2 false))
    (StreamClass.service = .service ∧ l.services.get 0 = some (aService .onLocal (some 4)) ∧ cellIsClock clockCell = true ∧
      (aService .onLocal (some 4)).clockLabel = some (cellLabel clockCell)) ∧
    l.holder 0 = some (4, aRecord .onLocal) ∧ l.insertions.get 4 = some (aRecord .onLocal) ∧
      (l.services.get 0).map ServiceEntry.splice = some .onLocal ∧ (l.dueCell 0).isSome = true ∧
      ((held (aRecord .onLocal) (some (aPlay (some 12) 1 false))).dueCell 0) = none ∧
      b.holder 0 = some (4, r) ∧ (b.services.get 0).map ServiceEntry.splice = some .returning ∧
      cellIsStart clockCell = true ∧ (aService .returning (some 4)).clockLabel = some (cellLabel clockCell) ∧
      cellIsStart nullCell = false ∧ b.control.notices.length < 64 := by
  decide +kernel

theorem meets_SplicedAndPlanCells_plan :
    let bank (e : PlanEntry) : State := { held (aRecord .onLocal) (some (aPlay (some 12) 0 false)) with
      assembler := { Assembler.reset with bank0 := { length := 1, entries := [(0, e)] }, carousel := [nullCell] } }
    let entry (s : State) := s.assembler.activeBank.entry (s.assembler.slot % s.assembler.activeBank.length)
    State.reset.assembler.activeBank.entry 0 = .null ∧ entry (bank .site) = .site ∧ entry (bank .spare) = .spare ∧
      ((bank .spare).dueCell ((7 + 1 + 0) % 8)).isSome = true ∧ (bank .site).assembler.carousel[0]? = some nullCell ∧
      State.reset.assembler.carousel[0]? = none ∧ ∀ c, c < 8 → State.reset.dueCell c = none := by
  decide +kernel

/-- An empty queue: nothing has come about and no work waits, within the second and at its end; a cell waits alone; and every
event has come about. -/
theorem meets_EmptyQueueTicks :
    let s (tick : Nat) : State := { withTime (fun t => { t with tick := tick }) with slotDue := false }
    let waits := (s 0).setLink .b { LinkState.reset with handOn := [aCell nullCell 1] }
    let due := ({ (withTime (fun t => { t with refTimer := some 0 })).setLink .a
        { LinkState.reset with up := true, timer := some 0 } with
      secondDue := true, insertions := [(4, { aRecord .returning with timer := some 0 })] } : State)
    (s 9999998).pending = [] ∧ (s 9999998).dueEvents = [] ∧ (s 9999998).waiting = [] ∧
      (s 9999998).time.tick + 1 < 10000000 ∧ (s 9999999).dueEvents = [] ∧ 10000000 ≤ (s 9999999).time.tick + 1 ∧
      (waits.pending = [] ∧ waits.dueEvents = [] ∧ waits.waiting = [.cellTake .b]) ∧
      (due.pending = [] ∧ due.dueEvents =
        [.secondBoundary, .slotBoundary, .referenceLost, .linkTimeout .a, .returnLimitExpiry 4]) ∧
      (slotState .shared .network nullCell).output.rest = [] ∧ State.reset.site.output = false := by
  decide +kernel

/-- A tick runs every timer down by one and counts the interval. -/
theorem test_tick_timers :
    let s := ({ (withTime (fun t => { t with refEdge := true, interval := 7, refTimer := some 15000000 })).setLink .a
        { LinkState.reset with up := true, timer := some 1 } with
      insertions := [(4, { aRecord .returning with timer := some 20000000 })] } : State)
    s.tick.time.interval = 8 ∧ s.tick.time.refTimer = some 14999999 ∧ s.tick.linkA.timer = some 0 ∧
      s.tick.linkB.timer = none ∧ (s.tick.insertions.get 4).map Insertion.timer = some (some 19999999) := by
  decide +kernel

/-- SITE.CONFIG of some fields. -/
abbrev siteBody (zone : Byte) (period offset latency dn0 hold : BitVec 32) (output : Byte) (timeout : BitVec 16) :
    SiteConfigBody :=
  { siteId := 65535, zone := zone, period := period, offset := offset, latency := latency, dn0 := dn0, holdMax := hold
    outputEnable := output, feedLossMute := output, linkTimeout := timeout }

/-- The ranges of R114, as the statement has them. -/
def siteInRange (b : SiteConfigBody) : Bool := decide (
  b.zone.toNat ≤ 15 ∧ b.period.toNat ∈ [250, 320, 400, 500, 625, 640, 800, 1000, 1250, 1600, 2000] ∧
    -5000000 ≤ b.offset.toInt ∧ b.offset.toInt ≤ 5000000 ∧ b.latency.toNat ≤ 2000000 ∧ b.dn0.toNat ≤ 9999999 ∧
    1000000 ≤ b.holdMax.toNat ∧ b.holdMax.toNat ≤ 15000000 ∧ b.outputEnable.toNat ≤ 1 ∧ b.feedLossMute.toNat ≤ 1 ∧
    1 ≤ b.linkTimeout.toNat ∧ b.linkTimeout.toNat ≤ 1000)

theorem meets_SiteConfig :
    siteInRange (siteBody 15 2000 5000000 2000000 9999999 15000000 1 1000) = true ∧
      siteInRange (siteBody 0 625 (-5000000) 0 0 1000000 0 1) = true ∧ State.reset.site.period = 625 ∧
      State.reset.site.output = false ∧ State.reset.insertions = [] := by
  decide

theorem meets_SiteConfig_outside :
    [siteBody 16 625 0 0 0 1000000 0 1, siteBody 0 626 0 0 0 1000000 0 1, siteBody 0 625 5000001 0 0 1000000 0 1,
      siteBody 0 625 (-5000001) 0 0 1000000 0 1, siteBody 0 625 0 2000001 0 1000000 0 1,
      siteBody 0 625 0 0 10000000 1000000 0 1, siteBody 0 625 0 0 0 999999 0 1, siteBody 0 625 0 0 0 15000001 0 1,
      siteBody 0 625 0 0 0 1000000 2 1, siteBody 0 625 0 0 0 1000000 0 0, siteBody 0 625 0 0 0 1000000 0 1001].any
        siteInRange = false := by
  decide

/-- The ranges of R106, as the statement has them. -/
def planInRange (b : PlanWriteBody) : Bool :=
  b.entries.all (fun e => decide (e.toNat ≤ 2)) && decide (
    b.bank.toNat ≤ 1 ∧ b.first.toNat + b.entries.length ≤ 1024 ∧
      (b.lengthPresent = 0#8 ∨ (b.lengthPresent = 1#8 ∧ 1 ≤ b.length.toNat ∧ b.length.toNat ≤ 1024)))

/-- A run that ends at 1,023 and one beyond it, an empty run at 1,024, and the lengths 0, 1, 1,024 and 1,025. -/
theorem meets_PlanRequests_ranges :
    [⟨1, 1022, [2, 1], 1, 1⟩, ⟨0, 1024, [], 1, 1024⟩, ⟨0, 0, [0], 0, 1025⟩].all planInRange = true ∧
      [⟨1, 1023, [2, 1], 1, 1⟩, ⟨2, 0, [], 0, 0⟩, ⟨1, 0, [3], 0, 0⟩, ⟨1, 0, [], 1, 1025⟩, ⟨1, 0, [], 1, 0⟩,
        ⟨1, 0, [], 2, 1⟩].any planInRange = false := by
  decide

theorem meets_PlanRequests :
    State.reset.assembler.activeOne = false ∧ State.reset.assembler.armedSwap = none ∧
      (State.reset.assembler.bank true).entries.wf = true ∧
      ((1#32 - 0#32).toInt = 1 ∧ (3600#32 - 0#32).toInt = 3600 ∧ (3601#32 - 0#32).toInt = 3601 ∧ (0#32 - 0#32).toInt = 0) ∧
      (List.replicate 8 nullCell).length ≤ 8 ∧ nullCell.length = 184 := by
  decide +kernel

theorem meets_PlanSwapAtBoundary :
    let s (armed : Epoch) : State :=
      { State.reset with secondDue := true, assembler := { Assembler.reset with armedSwap := some armed } }
    (s 1).secondDue = true ∧ (s 1).time.pendingSet = none ∧ (s 1).time.stepState ≠ .holdover ∧
      (s 1).heldNotices = none ∧ (s 1).assembler.armedSwap = some 1 ∧ ((s 1).time.second + 1 - 1).toInt = 0 ∧
      ((s 2).time.second + 1 - 2).toInt < 0 ∧ 0 < ((s 0).time.second + 1 - 0).toInt := by
  decide +kernel

/-! ### Clips and reels -/

/-- Clip 3 OPEN with room for two cells, and clip 12 READY and pinned. -/
def clipState : State :=
  { State.reset with
    clips := [(3, { ready := false, base := 10, capacity := 2, duration := 9, clock := 0, period := 625, written := 0
                    lastDue := none, highest := none, pins := 0 }), (12, aClip)] }

theorem meets_ClipWrite :
    let e := (clipState.clips.get 3).getD aClip
    let records := [aClipCell 0 true, aClipCell 8 false]
    let inRange (bodies : List RecordBody) : Prop := ∀ r ∈ bodies, r.component.toNat ≤ 3
    let stored (bodies : List RecordBody) : List ClipRecord := bodies.map (fun r =>
      { component := r.component.toNat, due := r.due.toNat, clock := r.flags.getLsbD 7, start := r.flags.getLsbD 6
        stamped := r.flags.getLsbD 5, payload := r.payload })
    [wholeRecord].all RecordBody.wellFormed = true ∧ inRange [{ wholeRecord with component := 3 }] ∧
      stored [wholeRecord] = [aClipCell 0 true] ∧ ¬inRange [{ wholeRecord with component := 4 }] ∧
      clipState.clips.get 3 = some e ∧ e.ready = false ∧ (∀ r ∈ records, r.due < e.duration) ∧ (0#32).toNat = e.written ∧
      e.lastDue = none ∧ (aClipCell 0 true).due ≤ (aClipCell 8 false).due ∧ e.written + records.length ≤ e.capacity ∧
      (∃ r ∈ [aClipCell 9 false], e.duration ≤ r.due) ∧ (1#32).toNat ≠ e.written ∧
      ¬(aClipCell 8 true).due ≤ (aClipCell 7 true).due ∧ e.capacity < e.written + 3 ∧
      clipState.clips.get 0 = none ∧ (clipState.clips.get 12).map ClipEntry.ready = some true := by
  decide +kernel

theorem meets_ClipDefineCloseDelete :
    (4194303#32).toNat ≤ 4194303 ∧ 4194303 < (4194304#32).toNat ∧ (4194303#32).toNat + (1#32).toNat ≤ 4194304 ∧
      (626#32).toNat ∉ Config.slotPeriods ∧ (625#32).toNat ∈ Config.slotPeriods ∧ clipState.clips.get 12 ≠ none ∧
      clipState.clips.get 7 = none ∧
      (∃ j e, (j, e) ∈ clipState.clips ∧ 1 < e.base + e.capacity ∧ e.base < 1 + 1) ∧
      (∀ j e, (j, e) ∈ clipState.clips → e.base + e.capacity ≤ 12 ∨ 12 + 1 ≤ e.base) ∧
      (∃ e, clipState.clips.get 3 = some e ∧ e.ready = false ∧ e.written = 0) ∧
      (∃ e, clipState.clips.get 12 = some e ∧ e.ready = true ∧ e.pins ≠ 0) ∧ ∃ e, clipState.clips.get 3 = some e ∧ e.pins = 0 := by
  refine ⟨by decide, by decide, by decide, by decide, by decide, by decide, by decide, ⟨12, aClip, by simp [clipState], by decide,
    by decide⟩, ?_, ⟨_, rfl, rfl, rfl⟩, ⟨_, rfl, rfl, by decide⟩, _, rfl, rfl⟩
  intro j e h
  simp only [clipState, List.mem_cons, Prod.mk.injEq, List.not_mem_nil, or_false] at h
  rcases h with ⟨_, h⟩ | ⟨_, h⟩ <;> subst h <;> decide

/-- A reel step as it is sent. -/
def stepBody (kind clip count : Byte) : StepBody := { kind := kind, clip := clip, count := count }

theorem meets_ReelSet :
    31 < (32#8).toNat ∧ 24 < (List.replicate 25 (stepBody 3 0 0)).length ∧ 3 < (stepBody 4 0 0).kind.toNat ∧
      ¬reelBalanced [.next] ∧ ¬reelBalanced [.loop 0] ∧ reelBalanced reelThree ∧
      (∀ i, stepDepth (List.replicate 4 (.loop 1) ++ .hold :: List.replicate 4 .next) i ≤ 4) ∧
      ¬(∀ i, stepDepth (List.replicate 5 (.loop 1) ++ .hold :: List.replicate 5 .next) i ≤ 4) ∧
      bodiesHold reelThree ∧ ¬bodiesHold [.loop 1, .next] ∧
      (∃ r, (held (aRecord .armed) none).reels.get (2#8).toNat = some r ∧ r.uses ≠ 0) ∧
      State.reset.reels.get (31#8).toNat = none := by
  have h (steps : List ReelStep) (hb : balanced steps 0 = true) : reelBalanced steps := (balanced_iff steps).mp hb
  refine ⟨by decide, by decide, by decide, fun k => ?_, fun k => ?_, h _ (by decide), ?_, fun k => ?_, ?_, fun k => ?_,
    ⟨_, rfl, by decide⟩, rfl⟩
  · exact absurd ((balanced_iff _).mpr k) (by decide)
  · exact absurd ((balanced_iff _).mpr k) (by decide)
  · exact (depthFits_iff (h _ (by decide))).mp (by decide)
  · exact absurd (k 4) (by decide)
  · exact (bodiesFilled_iff (h _ (by decide))).mp (by decide)
  · exact absurd ((bodiesFilled_iff (h _ (by decide))).mpr k) (by decide)

/-! ### Insertion -/

/-- INSERT.ARM of record 5, service 0, reel 2. -/
def armBody (record trigger : Byte) (slot : BitVec 24) : InsertArmBody :=
  { record := record, service := 0, trigger := trigger, cueId := 7, second := 0, slot := slot, reel := 2, endRule := 1
    length := 0, limitPresent := 0, limit := 0 }

/-- One ARMED record of a service in NETWORK, reel 2 and clip 12 ready. -/
def armedState : State := { held (aRecord .armed) none with channels := [] }

/-- The ranges of R141, as the statement has them. -/
def armInRange (b : InsertArmBody) : Bool := decide (
  b.record.toNat ≤ 15 ∧ b.service.toNat ≤ 63 ∧ b.reel.toNat ≤ 31 ∧
    (b.trigger = 0#8 ∨ (b.trigger = 1#8 ∧ b.slot.toNat < 10000000 / armedState.site.period)) ∧
    (b.endRule = 0#8 ∨ b.endRule = 1#8 ∨ (b.endRule = 2#8 ∧ 1 ≤ b.length.toNat)) ∧
    (b.limitPresent = 0#8 ∨ (b.limitPresent = 1#8 ∧ 1000000 ≤ b.limit.toNat ∧ b.limit.toNat ≤ 50000000)))

theorem meets_InsertArm_ranges :
    let cue := armBody 5 0 16000
    [cue, armBody 15 1 15999, { cue with endRule := 2, length := 1, limitPresent := 1, limit := 50000000 },
      { cue with limitPresent := 1, limit := 1000000 }].all armInRange = true ∧
    [armBody 16 0 0, armBody 5 1 16000, armBody 5 2 0, { cue with endRule := 2 }, { cue with endRule := 3 },
      { cue with limitPresent := 1, limit := 999999 }, { cue with limitPresent := 1, limit := 50000001 },
      { cue with service := 64 }, { cue with reel := 32 }].any armInRange = false := by
  decide +kernel

theorem meets_InsertArm :
    (∃ r, armedState.insertions.get 4 = some r ∧ r.state ≠ .done) ∧ armedState.insertions.get 15 = none ∧
      State.reset.services.get 0 = none ∧ armedState.services.get 0 = some (aService .network (some 4)) ∧
      armedState.reelSteps 2 = [.play 12] ∧ State.reset.reelSteps 2 = [] ∧ armedState.clips.get 12 = some aClip ∧
      aClip.ready = true ∧ aClip.period = armedState.site.period ∧
      aClip.highest.getD 0 < (aService .network (some 4)).components.length ∧
      ¬(aClip.highest.getD 0 < (ServiceEntry.fresh 0 []).components.length) ∧ armedState.time.epochKnown = true ∧
      State.reset.time.epochKnown = false ∧ armedState.channels.get 0 = none ∧
      (∀ c, c < 8 → (Table.get (α := Nat) [(0, 0), (1, 0), (2, 0), (3, 0), (4, 0), (5, 0), (6, 0), (7, 0)] c) ≠ none) ∧
      (0#32 - armedState.time.second).toInt * 10000000 + (2 : Nat) * armedState.site.period - armedState.time.tick =
        2 * (armedState.site.period : Int) ∧
      (0#32 - armedState.time.second).toInt * 10000000 + (1 : Nat) * armedState.site.period - armedState.time.tick <
        2 * (armedState.site.period : Int) ∧
      (30#32 - armedState.time.second).toInt * 10000000 + (0 : Nat) * armedState.site.period - armedState.time.tick =
        300000000 ∧
      300000000 < (30#32 - armedState.time.second).toInt * 10000000 + (1 : Nat) * armedState.site.period -
        armedState.time.tick := by
  decide +kernel

/-- A LOCAL record at its play. -/
def localAt (clip : Option Nat) (next : Nat) : State := held (aRecord .onLocal) (some (aPlay clip next false))

theorem meets_InsertReturn :
    15 < (16#8).toNat ∧ (∀ r, armedState.insertions.get (4#8).toNat = some r → r.state ≠ .onLocal ∨ r.brk ≠ none) ∧
      (localAt (some 12) 1).insertions.get (4#8).toNat = some (aRecord .onLocal) ∧ (aRecord .onLocal).brk = none ∧
      (aRecord .onLocal).channel = some 0 ∧
      (localAt (some 12) 1).channels.get 0 = some { record := 4, play := some (aPlay (some 12) 1 false) } ∧
      (localAt (some 12) 1).clips.get 12 = some aClip ∧ 1 < aClip.written ∧ aClip.written ≤ 2 ∧
      ((localAt (some 12) 1).clipRecord (aClip.base + 1)).start = false ∧
      ((localAt (some 12) 0).clipRecord (aClip.base + 0)).start = true ∧ (aPlay none 2 false).clip = none ∧
      ((localAt none 2).services.get 0).isSome = true := by
  refine ⟨by decide, ?_, by decide +kernel, rfl, rfl, by decide +kernel, by decide +kernel, by decide, by decide,
    by decide +kernel, by decide +kernel, rfl, by decide +kernel⟩
  intro r h
  have hr : some (aRecord .armed) = some r := h
  injection hr with hr
  subst hr
  exact .inl (by decide)

theorem meets_InsertCancelAndClear :
    15 < (16#8).toNat ∧ (15#8).toNat ≤ 15 ∧ State.reset.insertions.get 15 = none ∧
      armedState.insertions.get 4 = some (aRecord .armed) ∧
      (held (aRecord .primed) none).insertions.get 4 = some (aRecord .primed) ∧ (aRecord .primed).channel = some 0 ∧
      ((held (aRecord .primed) none).services.get 0).isSome = true ∧ (aRecord .onLocal).state ≠ .armed ∧
      (aRecord .onLocal).state ≠ .primed ∧ (held (aRecord .done) none).insertions.get 4 = some (aRecord .done) := by
  decide +kernel

/-- A CUE cell: id, splice stamp, break length 0, type, zone mask. -/
def cueCell (id stamp : Nat) (kind : Byte) (mask : Nat) : Bytes :=
  Machine.formCell 310 0 false false false false
    (beBytes 4 id ++ beBytes 4 stamp ++ beBytes 4 0 ++ [kind] ++ beBytes 2 mask ++ List.replicate 165 0)

theorem meets_CueIgnored :
    let p (id stamp : Nat) (kind : Byte) : Bytes := (cueCell id stamp kind 1).drop 4
    let q := p 7 639999999 3
    byteAt (p 7 0 4) 12 = 4 ∧ byteAt (p 7 0 0) 12 = 0 ∧ fieldNat (p 7 640000000 1) 4 4 = 640000000 ∧
      BitVec.ofNat 32 (fieldNat (p 4294967295 0 1) 0 4) = 4294967295#32 ∧
      (byteAt q 12 = 3 ∧ fieldNat q 4 4 < 640000000 ∧ BitVec.ofNat 32 (fieldNat q 0 4) ≠ 4294967295#32) ∧
      (BitVec.ofNat 16 (fieldNat q 13 2)).getLsbD State.reset.site.zone = true ∧
      (BitVec.ofNat 16 (fieldNat q 13 2)).getLsbD 15 = false ∧ State.reset.time.epochKnown = false := by
  decide +kernel

/-- The cue of such a cell as an OUT cue for slot 1,600 of second 0. -/
def anOut : TimedCue :=
  { service := 0, id := 7, kindByte := 1, kind := .out, length := 0, slot := { second := 0, slot := 1600 }, lead := 1000000 }

theorem meets_OutCuePrimes :
    let h := aHanded (cueCell 7 0 1 1) .cue 0 (some 0)
    let s := ({ armedState with toCue := [h] } : State)
    s.toCue = [h] ∧ h.service = some 0 ∧ h.item.arrivalStamp = some 0 ∧ s.time.epochKnown = true ∧
      byteAt (h.item.cell.drop 4) 12 = 1 ∧ fieldNat (h.item.cell.drop 4) 4 4 < 640000000 ∧
      anOut.id = BitVec.ofNat 32 (fieldNat (h.item.cell.drop 4) 0 4) ∧
      anOut.id ≠ 4294967295#32 ∧ (BitVec.ofNat 16 (fieldNat (h.item.cell.drop 4) 13 2)).getLsbD s.site.zone = true ∧
      anOut.length = fieldNat (h.item.cell.drop 4) 8 4 ∧
      anOut.lead = stampDiff (s.releaseSlot (fieldNat (h.item.cell.drop 4) 4 4) * s.site.period) 0 ∧
      (∀ cur ∈ s.currentPos, anOut.slot = s.nearestPos (s.releaseSlot (fieldNat (h.item.cell.drop 4) 4 4)) cur) ∧
      s.holder 0 = none ∧ s.armedMatch anOut = some (4, aRecord .armed) ∧ s.reachedNow (some anOut.slot) = false ∧
      2 * (s.site.period : Int) ≤ anOut.lead ∧ anOut.lead ≤ 300000000 ∧ s.freeChannel = some 0 ∧
      s.control.notices.length < 64 := by
  decide +kernel

/-- Such a cue as an OUT cue meets the ARMED record 4 while: another record holds the service, its lead is too short, its
slot has passed, it is too far ahead, every channel is held; and no record waits for another id. -/
theorem meets_OutCuePrimes_refused :
    let s := armedState
    let other := { aRecord .primed with matched := some 8 }
    let busy := ({ s with insertions := s.insertions ++ [(5, other)] } : State)
    let full := ({ s with channels := (List.range 8).map (fun c => (c, { record := c, play := none })) } : State)
    busy.armedMatch anOut = some (4, aRecord .armed) ∧ busy.holder 0 = some (5, other) ∧ other.matched ≠ some anOut.id ∧
      s.holder 0 = none ∧ stampDiff 1000000 998751 < 2 * s.site.period ∧ (2 : Int) * s.site.period ≤ stampDiff 1000000 998750 ∧
      ({ s with assembler := { s.assembler with slot := 1600 } } : State).reachedNow (some anOut.slot) = true ∧
      300000000 < stampDiff 300000625 0 ∧ full.freeChannel = none ∧
      full.armedMatch anOut = some (4, aRecord .armed) ∧ s.armedMatch { anOut with id := 8 } = none := by
  decide +kernel

theorem meets_CuesAtHeldRecord_break :
    let l (clip : Option Nat) (next : Nat) := localAt clip next
    (l (some 12) 1).holder 0 = some (4, aRecord .onLocal) ∧ (l (some 12) 1).insertions.get 4 = some (aRecord .onLocal) ∧
      (aRecord .onLocal).channel = some 0 ∧ (l (some 12) 1).services.get 0 = some (aService .onLocal (some 4)) ∧
      (l (some 12) 1).channels.get 0 = some { record := 4, play := some (aPlay (some 12) 1 false) } ∧
      (l (some 12) 1).clips.get 12 = some aClip ∧ ((l (some 12) 1).clipRecord (aClip.base + 1)).start = false ∧
      1 < aClip.written ∧ ((l (some 12) 0).clipRecord (aClip.base + 0)).start = true ∧ (aPlay none 2 false).clip = none ∧
      ({ l (some 12) 1 with assembler := { Assembler.reset with slot := 1600 } } : State).reachedNow (some anOut.slot) = true ∧
      ({ aRecord .onLocal with brk := some (.host, .cutShort) } : Insertion).brk ≠ none := by
  decide +kernel

theorem meets_CuesAtHeldRecord :
    let l := localAt (some 12) 1
    let p := held (aRecord .primed) none
    l.holder 0 = some (4, aRecord .onLocal) ∧ (aRecord .onLocal).brk = none ∧ (aRecord .onLocal).matched = some 7 ∧
      (aRecord .onLocal).endRule = .cue ∧ l.reachedNow (some anOut.slot) = false ∧
      p.holder 0 = some (4, aRecord .primed) ∧ (aRecord .primed).channel = some 0 ∧
      p.services.get 0 = some (aService .primed (some 4)) ∧ p.control.notices.length < 64 ∧
      (aRecord .primed).splice = some { second := 0, slot := 0 } ∧ p.reachedNow (some anOut.slot) = false ∧
      (aRecord .primed).matched ≠ some 8 ∧ (held (aRecord .returning) none).holder 0 = some (4, aRecord .returning) ∧
      ({ anOut with lead := 1249 } : TimedCue).lead < 2 * p.site.period ∧
      300000000 < ({ anOut with lead := 300000001 } : TimedCue).lead ∧ p.time.epochKnown = true ∧
      byteAt ((cueCell 7 639999999 2 1).drop 4) 12 = 2 ∧ byteAt ((cueCell 7 0 3 1).drop 4) 12 = 3 := by
  decide +kernel

theorem meets_ReturnLimitForcesReturn :
    let r := { aRecord .returning with timer := some 0 }
    let s := held r (some (aPlay none 2 false))
    s.insertions.get 4 = some r ∧ r.timer = some 0 ∧ r.state = .returning ∧ r.channel = some 0 ∧
      (s.services.get r.service).isSome = true ∧ s.control.notices.length < 64 := by
  decide +kernel

theorem meets_RecordAtSlotBoundary :
    let s := held (aRecord .primed) none
    let r := { aRecord .onLocal with breakSlot := some { second := 0, slot := 0 } }
    let b := held r (some (aPlay none 2 false))
    s.insertions.get 4 = some (aRecord .primed) ∧ s.currentPos = some { second := 0, slot := 0 } ∧
      s.channels.get 0 = some { record := 4, play := none } ∧ s.services.get 0 = some (aService .primed (some 4)) ∧
      (Pos.diff s.n { second := 0, slot := 0 } { second := 0, slot := 0 } = 0) ∧
      Pos.diff s.n { second := 0, slot := 0 } { second := 0, slot := 1 } < 0 ∧
      s.slotDiff s.currentNumber 0 * s.site.period ≤ 20000000 ∧
      20000000 < s.slotDiff 32001 0 * s.site.period ∧ s.slotDiff 32000 0 * s.site.period ≤ 20000000 ∧
      (s.reelSteps 2)[0]? = some (.play 12) ∧ s.clips.get 12 = some aClip ∧
      b.insertions.get 4 = some r ∧ r.brk = none ∧ (aPlay none 2 false).clip = none ∧ s.control.notices.length < 64 := by
  decide +kernel

/-- The walk's clauses, and a LOCAL record whose play has ended, at which its reel goes on to a PLAY, a HOLD or END. -/
theorem meets_RecordAtSlotBoundary_walk :
    let ended := { aPlay (some 12) 2 false with clipEnd := some { second := 0, slot := 0 } }
    let s (steps : List ReelStep) : State := { held (aRecord .onLocal) (some ended) with reels := [(2, { steps := steps, uses := 1 })] }
    ended.clip ≠ none ∧ 0 ≤ Pos.diff (s []).n { second := 0, slot := 0 } { second := 0, slot := 0 } ∧
      (aRecord .onLocal).breakSlot = none ∧ (aRecord .onLocal).brk = none ∧ (aRecord .onLocal).endRule ≠ .reel ∧
      ({ aRecord .onLocal with endRule := .reel } : Insertion).endRule = .reel ∧
      walk ((s [.play 12, .play 12]).reelSteps 2) 64 (0 + 1) [] = (1, [], .play 12) ∧
      walk ((s [.play 12, .hold]).reelSteps 2) 64 (0 + 1) [] = (1, [], .hold) ∧
      walk ((s [.play 12]).reelSteps 2) 64 (0 + 1) [] = (1, [], .atEnd) ∧
      walk ((s [.play 12]).reelSteps 2) 64 0 [] = (0, [], .play 12) ∧ walk ((s [.hold]).reelSteps 2) 64 0 [] = (0, [], .hold) ∧
      (s []).clips.get 12 = some aClip ∧ ended.clipStart = some { second := 0, slot := 0 } ∧
      (s []).control.notices.length < 63 := by
  decide +kernel

/-- The first reel step, a LOOP, a NEXT with one round, two rounds and endless rounds left. -/
theorem meets_RecordAtSlotBoundary_steps :
    reelThree[0]? = some (.loop 2) ∧ reelThree[1]? = some (.play 12) ∧ reelThree[3]? = some .next ∧ reelThree[5]? = none ∧
      1 < 2 ∧ ({ bodyStart := 1, remaining := none } : LoopFrame).remaining = none := by
  decide

/-- Record 4, PRIMED for slot 0 of second 1, and a plan swap armed for second 1, at the end of second 0. -/
def swapState : State :=
  { held { aRecord .primed with splice := some { second := 1, slot := 0 } } none with
    time := { TimeUnit.reset with epochKnown := true, tick := 9999999 }
    secondDue := true, slotDue := true, assembler := { Assembler.reset with armedSwap := some 1 } }

/-- The notice kinds queued after two commands. -/
def noticeOrder (a b : Instr) : List Bool :=
  (after (exec b (after (exec a swapState)))).control.notices.map (fun n =>
    match n.detail with
    | .planSwap _ _ _ _ => true
    | _ => false)

/-- R198: PLAN_SWAP joins before or after slot 0's INSERT notice, as either event is taken first. -/
theorem test_swap_and_slot_order :
    noticeOrder .secondBoundary .slotBoundary = [true, false] ∧ noticeOrder .slotBoundary .secondBoundary = [false, true] ∧
      { after (exec .slotBoundary (after (exec .secondBoundary swapState))) with control := .reset } =
        { after (exec .secondBoundary (after (exec .slotBoundary swapState))) with control := .reset } := by
  decide +kernel

theorem meets_DueCells :
    let s := localAt (some 12) 1
    let late := ({ s with assembler := { s.assembler with slot := 8 } } : State)
    s.channels.get 0 = some { record := 4, play := some (aPlay (some 12) 1 false) } ∧
      s.insertions.get 4 = some (aRecord .onLocal) ∧ s.clips.get 12 = some aClip ∧
      (aPlay (some 12) 1 false).clipStart = some { second := 0, slot := 0 } ∧ 1 < aClip.written ∧
      s.currentPos = some { second := 0, slot := 0 } ∧ (s.clipRecord 1).due = 8 ∧
      Pos.diff s.n { second := 0, slot := 0 } { second := 0, slot := 8 } < 0 ∧
      late.currentPos = some { second := 0, slot := 8 } ∧
      Pos.diff s.n { second := 0, slot := 8 } { second := 0, slot := 8 } = 0 ∧
      (s.n : Int) < Pos.diff s.n { second := 1, slot := 9 } { second := 0, slot := 8 } ∧
      (s.clipRecord 0).start = true ∧ (s.services.get 0).isSome = true ∧ s.control.notices.length < 64 := by
  decide +kernel

/-- A pending exit: cell 1 of clip 12 is its last cell, and in a clip of three cells neither its last one nor before a START
cell. -/
theorem meets_DueCells_exit :
    let r := { aRecord .onLocal with brk := some (.cancelCue, .cutShort) }
    let s := held r (some (aPlay (some 12) 1 true))
    let late := ({ s with assembler := { s.assembler with slot := 8 } } : State)
    let three := { aClip with capacity := 3, written := 3 }
    let longer := ({ late with clips := [(12, three)], clipCells := late.clipCells ++ [(2, aClipCell 9 false)] } : State)
    late.insertions.get 4 = some r ∧ r.channel = some 0 ∧ (late.clipRecord 1).start = false ∧
      Pos.diff late.n { second := 0, slot := 8 } { second := 0, slot := 8 } = 0 ∧ 1 + 1 = aClip.written ∧
      (late.dueCell 0).isSome = true ∧ 1 + 1 < three.written ∧ (longer.clipRecord (three.base + (1 + 1))).start = false ∧
      (longer.dueCell 0).isSome = true := by
  decide +kernel

theorem meets_LocalCellRebased :
    ∃ d, (localAt (some 12) 0).dueCell 0 = some d ∧ d.cell.payload.length = 180 ∧ d.insertion.service = 0 ∧
      d.cell.component = 0 ∧ d.cell.clock = false ∧ d.cell.stamped = false ∧ d.cell.component ∉ d.play.started ∧
      ∃ y, (aService .onLocal (some 4)).components[0]? = some y ∧ y.label < 4096 ∧ y.continuity < 16 :=
  ⟨_, rfl, by decide +kernel, rfl, rfl, rfl, rfl, by decide, _, rfl, by decide, by decide⟩

/-- A cell that is CLOCK, STAMPED or both is due and is a cell of the service's component. -/
theorem meets_LocalCellRebased_kinds (clock stamped : Bool) :
    let s : State := { localAt (some 12) 0 with
      clipCells := [(0, { aClipCell 0 true with clock := clock, stamped := stamped })] }
    (s.dueCell 0).map (fun d => (d.cell.clock, d.cell.stamped)) = some (clock, stamped) ∧
      (s.dueCell 0).map (fun d => (d.cell.payload.length, d.cell.component, d.insertion.service)) = some (180, 0, 0) ∧
      (s.services.get 0).map (fun x => x.components.length) = some 1 := by
  cases clock <;> cases stamped <;> decide +kernel

/-! ### The Control Link -/

/-- The Control Link selected, with its receiver in a state. -/
def receiving (r : FrameReceiver) : State :=
  { State.reset with control := { ControlLink.reset with selected := true, receiver := r } }

theorem meets_FrameCompletes :
    let header : Bytes := [0, 0, 1, 3, 0, 7]
    let c := crc16 header
    let s := receiving (.crc header [] [BitVec.ofNat 8 (c.toNat / 256)])
    s.control.selected = true ∧ s.control.shiftOut = [] ∧ s.control.reply = .none ∧
      c.toNat = (BitVec.ofNat 8 (c.toNat / 256)).toNat * 256 + (BitVec.ofNat 8 c.toNat).toNat ∧
      c.toNat ≠ (BitVec.ofNat 8 (c.toNat / 256)).toNat * 256 + (BitVec.ofNat 8 (c.toNat + 1)).toNat ∧
      requestLength 0x0103#16 [] = some 0 ∧ requestLength 0x0105#16 [] = none ∧ requestLength 0x0100#16 [] = none ∧
      requestLength 0x0706#16 [] = none ∧ requestLength 0x0407#16 [1] = some 185 ∧
      requestLength 0x0502#16 [] = some 6 := by
  decide +kernel

theorem meets_RequestFrameIsTaken :
    let i : Instr := .timeSet 7 5
    i.wellFormed = true ∧ requestKind i = some (0x0102#16, 7#16) ∧ State.reset.control.receiver = .hunt ∧
      State.reset.control.reply = .none ∧
      (frameOf 0x0102#16 7 (requestBody i)).foldl (fun (x : State) b => x.receiveByte b) State.reset =
        { State.reset with control := { State.reset.control with reply := .taken i } } := by
  decide +kernel

theorem meets_BusyAndRefusal :
    let i : Instr := .timeRead 7
    let busy := ({ State.reset with control := { ControlLink.reset with reply := .taken (.timeRead 8) } } : State)
    requestKind i = some (0x0103#16, 7#16) ∧ busy.control.reply ≠ .none ∧ busy.control.reply ≠ .taken i ∧
      (after (exec (.originRead 7 16) State.reset)).control.reply = .handled 0x0202#16 7 .range [] := by
  decide +kernel

theorem meets_ReplyMadeReady :
    let s := ({ State.reset with control := { ControlLink.reset with reply := .handled 0x0102#16 7 .ok [] } } : State)
    s.control.reply = .handled 0x0102#16 7 .ok [] ∧ (after (exec .replyMadeReady s)).attention = true := by
  decide +kernel

theorem meets_ControlLinkBytes :
    (receiving .hunt).control.selected = true ∧ (receiving .hunt).control.shiftOut = [] ∧ 0x5D#8 ≠ 0xB3#8 ∧
      1600 < (6#8).toNat * 256 + (0x41#8).toNat ∧ ¬1600 < (6#8).toNat * 256 + (0x40#8).toNat ∧
      State.reset.control.selected = false ∧ (receiving .sync).control.receiver ≠ .hunt ∧
      (receiving .discard).control.receiver = .discard ∧
      ({ (receiving .hunt).control with shiftOut := [1] } : ControlLink).shiftOut = [1] := by
  decide +kernel

/-- A scope and an index that name a link, a stream or a service (R194). -/
abbrev scopeNamed (scope : Byte) (index : BitVec 16) : Prop :=
  (scope = 0#8 ∧ index.toNat ≤ 1) ∨ (scope = 1#8 ∧ index.toNat ≤ 511) ∨ (scope = 2#8 ∧ index.toNat ≤ 63)

theorem meets_NoticesStatusAndCounts :
    (fullQueue.control.notices.length = 64 ∧ State.reset.control.notices.length < 64) ∧
    (scopeNamed 0 1 ∧ scopeNamed 1 511 ∧ scopeNamed 2 63) ∧ ¬scopeNamed 0 2 ∧ ¬scopeNamed 1 512 ∧ ¬scopeNamed 2 64 ∧
      ¬scopeNamed 3 0 := by
  decide

/-! ### Invariants -/

theorem meets_invariants :
    State.reset.canonical = true ∧ State.reset.ringTagged ∧ State.reset.permitSound ∧ State.reset.queuesBounded ∧
      State.reset.loopInRange ∧ State.reset.siteTimeSound ∧ State.reset.reelsSound ∧ State.reset.cellsWhole := by
  refine ⟨by decide +kernel, by simp [State.ringTagged, State.reset], by simp [State.permitSound, State.reset,
    OutputPort.reset], ?_, ?_, ?_, ?_, ?_⟩
  · simp [State.queuesBounded, State.reset, ControlLink.reset, LinkState.reset]
  · simp [State.loopInRange, State.reset, TimeUnit.reset]
  · simp [State.siteTimeSound, State.reset, TimeUnit.reset, SiteConfig.reset, Config.slotPeriods]
  · intro p hp
    cases hp
  · refine ⟨?_, ?_, ?_, ?_, ?_, ?_⟩
    · intro l taken h
      cases l <;> cases h
    · intro l c h
      cases l <;> cases h
    all_goals intro c h; cases h

/-- A sound state in which a record holds its service. -/
theorem meets_insertionSound : (localAt (some 12) 1).insertionSound ∧ (localAt (some 12) 1).canonical = true := by
  refine ⟨⟨?_, ?_, ?_⟩, by decide +kernel⟩
  · intro j r h _
    simp only [localAt, held, Table.get] at h
    split at h
    · injection h with h
      subst h
      decide +kernel
    · cases h
  · intro j r h _
    simp only [localAt, held, Table.get] at h
    split at h
    · rename_i hj
      injection h with h
      subst h hj
      decide +kernel
    · cases h
  · intro k hk
    have hk0 : (0 : Nat) ≠ k := hk 4 (aRecord .onLocal) (by decide +kernel) (by decide)
    simp [State.spliceOf, State.activeOf, localAt, held, Table.get, hk0.symm]

end Sys2Proof.Tests
end

/-! SUPPORT. Distribution links (02): what one byte does in each delineation state, and the statement about it. -/

namespace Sys2Proof.Machine

section

variable (l : Link) (b : Byte) {s : State} {taken : Bytes}

/-! ## A byte taken, by delineation state (R26, R27, R29) -/

/-- A count and a new delineation state are one change of the link's receiver. -/
theorem State.setDelineation_countLink (d : Delineation) (f : LinkCounts → LinkCounts) (s : State) :
    (s.countLink l f).setDelineation l d =
      s.setLink l { s.link l with delineation := d, counts := f (s.link l).counts } := by
  simp only [State.setDelineation, State.countLink, State.link_setLink_same, State.setLink_setLink]

theorem State.takeStart_between
    (h : (s.link l).delineation = .hunt ∨ ∃ x, (s.link l).delineation = .trailing x) :
    s.takeStart l b = s.setDelineation l (.assembling [b]) := by
  unfold State.takeStart
  rcases h with h | ⟨x, h⟩ <;> rw [h]

theorem State.takeStart_assembling (h : (s.link l).delineation = .assembling taken) :
    s.takeStart l b = s.setLink l { s.link l with
      delineation := .assembling [b]
      counts := { (s.link l).counts with runts := bump (s.link l).counts.runts } } := by
  unfold State.takeStart
  rw [h]
  exact State.setDelineation_countLink l _ _ s

theorem State.takeData_ignored
    (h : (s.link l).delineation = .hunt ∨ (s.link l).delineation = .trailing true) : s.takeData l b = s := by
  unfold State.takeData
  rcases h with h | h <;> rw [h]

theorem State.takeData_assembling (h : (s.link l).delineation = .assembling taken) (hlen : taken.length < 199) :
    s.takeData l b = s.setDelineation l (.assembling (taken ++ [b])) := by
  unfold State.takeData
  rw [h]
  exact if_pos (Nat.succ_lt_succ hlen)

theorem State.takeData_firstExtra (h : (s.link l).delineation = .trailing false) :
    s.takeData l b = s.setLink l { s.link l with
      delineation := .trailing true
      counts := { (s.link l).counts with overlong := bump (s.link l).counts.overlong } } := by
  unfold State.takeData
  rw [h]
  exact State.setDelineation_countLink l _ _ s

/-! ## The commands that take the byte -/

theorem exec_linkByte_start (s : State) : exec (.linkByte l true b) s = .next (s.takeStart l b) := rfl

theorem exec_linkByte_data (s : State) : exec (.linkByte l false b) s = .next (s.takeData l b) := rfl

theorem LinkState.inCell_assembling {k : LinkState} (h : k.delineation = .assembling taken) : k.inCell = true := by
  unfold LinkState.inCell
  rw [h]

/-- RUNT takes its byte when a cell is in progress. -/
theorem exec_runt_assembling (h : (s.link l).delineation = .assembling taken) :
    exec (.runt l b) s = .next (s.takeStart l b) :=
  congrArg Host.Outcome.next (if_pos (LinkState.inCell_assembling h))

/-- OVERLONG takes its byte when no extra byte has been seen. -/
theorem exec_overlong_firstExtra (h : (s.link l).delineation = .trailing false) :
    exec (.overlong l b) s = .next (s.takeData l b) :=
  congrArg Host.Outcome.next (if_pos h)

end

/-! ## The statement -/

/-- Settles O15, by the delineation state the byte meets: the bytes that count nothing, then the runt, then the first extra
byte. -/
theorem linkBytes : Obligations.LinkBytes := by
  unfold Obligations.LinkBytes
  refine ⟨fun l b s => ⟨fun hbetween => ?_, fun hignored => ?_, fun taken hcell hlen => ?_⟩,
    fun l b taken s hcell => ⟨?_, ?_⟩, fun l b s hextra => ⟨?_, ?_⟩⟩
  · rw [exec_linkByte_start, State.takeStart_between l b hbetween]
    rfl
  · rw [exec_linkByte_data, State.takeData_ignored l b hignored]
  · rw [exec_linkByte_data, State.takeData_assembling l b hcell hlen]
    rfl
  · rw [exec_runt_assembling l b hcell, State.takeStart_assembling l b hcell, bump_eq]
  · rw [exec_runt_assembling l b hcell, exec_linkByte_start]
  · rw [exec_overlong_firstExtra l b hextra, State.takeData_firstExtra l b hextra, bump_eq]
  · rw [exec_overlong_firstExtra l b hextra, exec_linkByte_data]

end Sys2Proof.Machine

/-! SUPPORT. Classification tables (03): STREAM.SET and STREAM.CLEAR, their checks in the statement's words, and the
statement about them. -/

namespace Sys2Proof.Machine

section

variable {s : State} {r : StreamRequest}

/-! ## The checks of a stream request (R50, R52) -/

theorem State.spliced_iff (service : Option Nat) :
    s.spliced service = true ↔ ∃ k, service = some k ∧ s.spliceOf k ≠ .network := by
  cases service <;> simp [State.spliced]

theorem StreamEntry.held_eq_some_iff (e : StreamEntry) (k : Nat) :
    e.held = some k ↔ e.cls.needsService = true ∧ e.service = some k := by
  unfold StreamEntry.held
  cases e.cls.needsService <;> simp

/-- The service a stream entry holds is spliced. -/
theorem State.spliced_held_iff (index : Nat) :
    s.spliced ((s.streams.get index).bind StreamEntry.held) = true ↔
      ∃ e, s.streams.get index = some e ∧ e.cls.needsService = true ∧
        ∃ k, e.service = some k ∧ s.spliceOf k ≠ .network := by
  rw [State.spliced_iff]
  cases s.streams.get index with
  | none => simp
  | some e => simp [StreamEntry.held_eq_some_iff, and_assoc]

theorem State.not_serviceValid_iff (service : Option Nat) :
    ¬s.serviceValid service = true ↔ ∃ k, service = some k ∧ s.services.get k = none := by
  cases service <;> simp [State.serviceValid]

theorem State.labelMapped_iff (r : StreamRequest) :
    s.labelMapped r = true ↔
      (r.cls = .service → ∃ k x, r.service = some k ∧ s.services.get k = some x ∧ r.label ∈ x.labels) := by
  obtain ⟨index, label, origin, cls, service⟩ := r
  cases cls with
  | service =>
    cases service with
    | none => simp [State.labelMapped]
    | some k => cases hk : s.services.get k <;> simp [State.labelMapped, hk]
  | shared | cue | timing | drop => simp [State.labelMapped]

/-- Another entry has the request's label and origin. -/
theorem StreamRequest.taken_iff (streams : Table StreamEntry) (r : StreamRequest) :
    streams.someSuch (fun j e => decide (j ≠ r.index) && decide (e.label = r.label) && decide (e.origin = r.origin)) =
        true ↔
      ∃ j e, (j, e) ∈ streams ∧ j ≠ r.index ∧ e.label = r.label ∧ e.origin = r.origin := by
  simp [Table.someSuch_iff, and_assoc]

/-! ## The entry STREAM.SET writes (R51) -/

/-- An entry whose key and class stay is kept, but for the service it names. -/
theorem StreamRequest.entry_kept {e : StreamEntry} (hl : e.label = r.label) (ho : e.origin = r.origin)
    (hc : e.cls = r.cls) : r.entry (some e) = { e with service := r.service } :=
  if_pos ⟨hl, ho, hc⟩

/-- An entry that was invalid, or whose key or class changes, begins anew. -/
theorem StreamRequest.entry_begun {old : Option StreamEntry}
    (h : ∀ e, old = some e → e.label ≠ r.label ∨ e.origin ≠ r.origin ∨ e.cls ≠ r.cls) :
    r.entry old = { label := r.label, origin := r.origin, cls := r.cls, service := r.service, merge := .fresh
                    counts := .zero } := by
  cases old with
  | none => rfl
  | some e => exact if_neg (fun ⟨hl, ho, hc⟩ => (h e rfl).elim (· hl) (·.elim (· ho) (· hc)))

/-- The entry written has the configuration asked for. -/
theorem StreamRequest.entry_configured (r : StreamRequest) (old : Option StreamEntry) :
    (r.entry old).label = r.label ∧ (r.entry old).origin = r.origin ∧ (r.entry old).cls = r.cls ∧
      (r.entry old).service = r.service := by
  by_cases h : ∃ e, old = some e ∧ e.label = r.label ∧ e.origin = r.origin ∧ e.cls = r.cls
  · obtain ⟨e, rfl, hl, ho, hc⟩ := h
    rw [StreamRequest.entry_kept hl ho hc]
    exact ⟨hl, ho, hc, rfl⟩
  · rw [StreamRequest.entry_begun (by grind)]
    exact ⟨rfl, rfl, rfl, rfl⟩

/-! ## The Classifier's answers -/

/-- The stream entry that the fields of STREAM.SET ask for; the service index counts for SERVICE and CUE alone (R50). -/
def requestedStream (b : StreamSetBody) : StreamRequest :=
  { index := b.index.toNat, label := b.label.toNat, origin := b.origin.toNat
    cls := [StreamClass.service, .shared, .cue, .timing, .drop].getD b.cls.toNat .drop
    service := if b.cls = 0#8 ∨ b.cls = 2#8 then some b.service.toNat else none }

theorem readStreamSet_inRange {b : StreamSetBody} (h : b.index.toNat ≤ 511 ∧ b.label.toNat ≤ 4094 ∧
    b.origin.toNat ≤ 15 ∧ b.cls.toNat ≤ 4 ∧ (b.cls = 0#8 ∨ b.cls = 2#8 → b.service.toNat ≤ 63)) :
    readStreamSet b = some (requestedStream b) :=
  (readStreamSet_eq b).trans (if_pos h)

theorem handleStreamSet_unread {b : StreamSetBody} (h : readStreamSet b = none) :
    handleStreamSet b s = .refuse .range := by
  unfold handleStreamSet
  rw [h]

open Classical in
/-- STREAM.SET of fields in range: its checks in their order, and its acceptance (R50, R51). -/
theorem handleStreamSet_read {b : StreamSetBody} (h : readStreamSet b = some r) :
    handleStreamSet b s =
      if s.origins.get r.origin = none then .refuse .state
      else if ∃ j e, (j, e) ∈ s.streams ∧ j ≠ r.index ∧ e.label = r.label ∧ e.origin = r.origin then
        .refuse .duplicate
      else if ∃ k, r.service = some k ∧ s.services.get k = none then .refuse .noService
      else if ¬(r.cls = .service → ∃ k x, r.service = some k ∧ s.services.get k = some x ∧ r.label ∈ x.labels) then
        .refuse .notMapped
      else if (∃ k, r.service = some k ∧ s.spliceOf k ≠ .network) ∨
          ∃ e, s.streams.get r.index = some e ∧ e.cls.needsService = true ∧
            ∃ k, e.service = some k ∧ s.spliceOf k ≠ .network then .refuse .busy
      else .ok { s with streams := s.streams.put r.index (r.entry (s.streams.get r.index)) } [] := by
  unfold handleStreamSet
  simp only [h, Option.isNone_iff_eq_none, StreamRequest.taken_iff, Bool.not_eq_true', ← Bool.not_eq_true,
    State.not_serviceValid_iff, State.labelMapped_iff, Bool.or_eq_true, State.spliced_held_iff]
  simp only [State.spliced_iff, or_comm]

open Classical in
/-- STREAM.CLEAR of an index in range (R52). -/
theorem handleStreamClear_inRange {index : Nat} (h : index ≤ 511) :
    handleStreamClear index s =
      if ∃ e, s.streams.get index = some e ∧ e.cls.needsService = true ∧
          ∃ k, e.service = some k ∧ s.spliceOf k ≠ .network then .refuse .busy
      else .ok { s with streams := s.streams.del index } [] := by
  unfold handleStreamClear
  rw [if_neg (by omega)]
  simp only [State.spliced_held_iff]

theorem exec_streamSet_handled {tag : BitVec 16} {b : StreamSetBody} (h : s.mayTake (.streamSet tag b)) :
    exec (.streamSet tag b) s = .next (s.answered 0x0203#16 tag (handleStreamSet b s)) :=
  congrArg Host.Outcome.next (State.request_handled _ _ _ h rfl)

theorem exec_streamClear_handled {tag index : BitVec 16} (h : s.mayTake (.streamClear tag index)) :
    exec (.streamClear tag index) s = .next (s.answered 0x0204#16 tag (handleStreamClear index.toNat s)) :=
  congrArg Host.Outcome.next (State.request_handled _ _ _ h rfl)

end

/-! ## The statement -/

/-- Settles O23: each clause is one branch of the Classifier's answer, the checks in their order. -/
theorem streamSetAndClear : Obligations.StreamSetAndClear := by
  unfold Obligations.StreamSetAndClear
  refine ⟨fun tag b s hmay => ⟨fun hout => ?_, fun hin => ?_⟩,
    fun tag index s hmay => ⟨fun hout => ?_, fun hin hbusy => ?_, fun hin hfree => ?_⟩⟩
  · rw [exec_streamSet_handled hmay, handleStreamSet_unread ((readStreamSet_eq b).trans (if_neg hout)),
      State.answered_refuse]
  · rw [exec_streamSet_handled hmay]
    have hset := handleStreamSet_read (s := s) (readStreamSet_inRange hin)
    refine ⟨fun hnone => ?_, fun ho hdup => ?_, fun ho hd hnone => ?_, fun ho hd hs hunmapped => ?_,
      fun ho hd hs hm hbusy => ?_, fun ho hd hs hm hfree =>
        ⟨(requestedStream b).entry (s.streams.get b.index.toNat), ?_, ?_⟩⟩
    · rw [hset.trans (if_pos hnone), State.answered_refuse]
    · rw [hset.trans ((if_neg ho).trans (if_pos hdup)), State.answered_refuse]
    · rw [hset.trans ((if_neg ho).trans ((if_neg hd).trans (if_pos hnone))), State.answered_refuse]
    · rw [hset.trans ((if_neg ho).trans ((if_neg hd).trans ((if_neg hs).trans (if_pos hunmapped)))), State.answered_refuse]
    · rw [hset.trans ((if_neg ho).trans ((if_neg hd).trans ((if_neg hs).trans ((if_neg (not_not_intro hm)).trans
        (if_pos hbusy))))), State.answered_refuse]
    · rw [hset.trans ((if_neg ho).trans ((if_neg hd).trans ((if_neg hs).trans ((if_neg (not_not_intro hm)).trans
        (if_neg hfree))))), State.answered_ok]
      rfl
    · obtain ⟨hlabel, horigin, hcls, hservice⟩ :=
        StreamRequest.entry_configured (requestedStream b) (s.streams.get b.index.toNat)
      refine ⟨hlabel, horigin, hcls, hservice, fun e he hl ho hc => ?_, fun hnew => ?_⟩
      · rw [he, StreamRequest.entry_kept hl ho hc]
        exact ⟨rfl, rfl⟩
      · rw [StreamRequest.entry_begun hnew]
        exact ⟨rfl, rfl⟩
  · rw [exec_streamClear_handled hmay, handleStreamClear, if_pos hout, State.answered_refuse]
  · obtain ⟨e, k, he, hc, hk, hs⟩ := hbusy
    rw [exec_streamClear_handled hmay, handleStreamClear_inRange hin, if_pos ⟨e, he, hc, k, hk, hs⟩,
      State.answered_refuse]
  · rw [exec_streamClear_handled hmay, handleStreamClear_inRange hin,
      if_neg (fun ⟨e, he, hc, k, hk, hs⟩ => hfree ⟨e, k, he, hc, hk, hs⟩), State.answered_ok]

end Sys2Proof.Machine

/-! SUPPORT. Dual-link merge (04): the outcome of a cell at each sequence distance, the marks and the lost count it leaves,
and the statement about them. -/

namespace Sys2Proof.Machine

section

variable {h s : Seq} {seen : BitVec 64}

/-! ## The outcome by sequence distance (R60, R61) -/

theorem mergeCell_fresh (s : Seq) : mergeCell .fresh s = .accepted (.startAt s) 0 none := rfl

theorem mergeCell_resynchronises (hfar : 4096 < (s - h).toInt ∨ (s - h).toInt < -4096) :
    mergeCell (.running h seen) s = .accepted (.startAt s) 0 (some h) :=
  if_pos hfar

theorem mergeCell_advances (hlow : 1 ≤ (s - h).toInt) (hhigh : (s - h).toInt ≤ 4096) :
    mergeCell (.running h seen) s = .accepted (.running s (advanceWindow seen (s - h).toInt.toNat))
      (lostAtAdvance seen (s - h).toInt.toNat) none := by
  simp only [mergeCell]
  rw [if_neg (by omega), if_pos hlow]

theorem mergeCell_highest (hzero : (s - h).toInt = 0) : mergeCell (.running h seen) s = .duplicate := by
  simp only [mergeCell]
  rw [if_neg (by omega), if_neg (by omega), if_pos hzero]

/-- A number of the window below the highest: its mark decides (R64, R65). -/
theorem mergeCell_inWindow (hlow : -63 ≤ (s - h).toInt) (hhigh : (s - h).toInt ≤ -1) :
    mergeCell (.running h seen) s =
      if seen.getLsbD (-(s - h).toInt).toNat then .duplicate
      else .accepted (.running h (seen ||| (1#64 <<< (-(s - h).toInt).toNat))) 0 none := by
  simp only [mergeCell]
  rw [if_neg (by omega), if_neg (by omega), if_neg (by omega), if_pos hlow]

theorem mergeCell_stale (hlow : -4096 ≤ (s - h).toInt) (hhigh : (s - h).toInt ≤ -64) :
    mergeCell (.running h seen) s = .stale := by
  simp only [mergeCell]
  rw [if_neg (by omega), if_neg (by omega), if_neg (by omega), if_neg (by omega)]

/-! ## The marks an accepted cell leaves (R62, R64) -/

theorem getLsbD_advanceWindow {d k : Nat} (hk : k < 64) :
    (advanceWindow seen d).getLsbD k = if k = 0 then true else if k < d then false else seen.getLsbD (k - d) := by
  unfold advanceWindow
  rw [BitVec.getLsbD_or, BitVec.getLsbD_shiftLeft, BitVec.getLsbD_one]
  by_cases hzero : k = 0
  · simp [hzero]
  · by_cases hentering : k < d <;> simp [hzero, hentering, hk]

/-- A late fill marks its own number and no other. -/
theorem getLsbD_or_mark {j k : Nat} (hk : k < 64) :
    (seen ||| (1#64 <<< j)).getLsbD k = (seen.getLsbD k || decide (k = j)) := by
  rw [BitVec.getLsbD_or, BitVec.getLsbD_shiftLeft, BitVec.getLsbD_one]
  have hown : (¬k < j ∧ k - j = 0) ↔ k = j := by omega
  simp only [hk, Nat.ofNat_pos, decide_true, Bool.true_and, ← hown, Bool.decide_and, decide_not]

/-! ## The numbers lost at an advance (R63) -/

/-- The number `i` places above the window's lowest was not seen: its mark is unset, or it lies above the old highest. -/
def leavesUnseen (seen : BitVec 64) (i : Nat) : Bool := if i < 64 then !seen.getLsbD (63 - i) else true

/-- Within the window the marks count; each number beyond it adds one. -/
theorem lostAtAdvance_eq_countP (seen : BitVec 64) (d : Nat) :
    lostAtAdvance seen d = (List.range d).countP (leavesUnseen seen) := by
  have hwindow : ((List.range (min d 64)).filter (fun i => !seen.getLsbD (63 - i))).length =
      (List.range (min d 64)).countP (leavesUnseen seen) := by
    rw [← List.countP_eq_length_filter]
    refine List.countP_congr fun i hi => ?_
    have hi64 : i < 64 := by have := List.mem_range.mp hi; omega
    simp [leavesUnseen, hi64]
  have hbeyond : ((List.range (d - 64)).map (min d 64 + ·)).countP (leavesUnseen seen) = d - 64 := by
    rw [List.countP_eq_length.mpr, List.length_map, List.length_range]
    intro i hi
    obtain ⟨j, hj, rfl⟩ := List.mem_map.mp hi
    have hpast : ¬min d 64 + j < 64 := by have := List.mem_range.mp hj; omega
    simp [leavesUnseen, hpast]
  have hsplit : List.range d = List.range (min d 64) ++ (List.range (d - 64)).map (min d 64 + ·) := by
    rw [← List.range_add]
    congr 1
    omega
  rw [hsplit, List.countP_append, hbeyond, ← hwindow, lostAtAdvance]

end

/-! ## The statement -/

/-- Settles O19: each clause is one row of the table of R60; the marks and the lost count of an accepted cell follow from
the window it leaves. -/
theorem mergeByDistance : Obligations.MergeByDistance := by
  unfold Obligations.MergeByDistance
  refine ⟨mergeCell_fresh, ?_⟩
  rintro h s seen d rfl
  refine ⟨fun hlow hhigh => ⟨advanceWindow seen (s - h).toInt.toNat, ?_, fun k hk => ?_⟩, mergeCell_highest,
    fun hlow hhigh hseen => ?_,
    fun hlow hhigh hunseen => ⟨seen ||| (1#64 <<< (-(s - h).toInt).toNat), ?_, fun k hk => ?_⟩,
    mergeCell_stale, mergeCell_resynchronises⟩
  · rw [mergeCell_advances hlow hhigh, lostAtAdvance_eq_countP]
    rfl
  · rw [getLsbD_advanceWindow hk]
    simp only [Int.lt_toNat]
  · rw [mergeCell_inWindow hlow hhigh, if_pos hseen]
  · rw [mergeCell_inWindow hlow hhigh, if_neg (Bool.eq_false_iff.mp hunseen)]
  · have hplace : k = (-(s - h).toInt).toNat ↔ (k : Int) = -(s - h).toInt := by omega
    rw [getLsbD_or_mark hk, decide_eq_decide.mpr hplace]

end Sys2Proof.Machine

/-! SUPPORT. Clip Store (07): the extent and the fields of CLIP.DEFINE, what the Clip Store answers to CLIP.DEFINE, CLIP.CLOSE
and CLIP.DELETE, and the statement about them. -/

namespace Sys2Proof.Machine

section

variable {s : State} {b : ClipDefineBody} {clip : Nat}

/-! ## Extents and pins (R119, R120) -/

theorem extentsOverlap_iff (base1 cap1 base2 cap2 : Nat) :
    extentsOverlap base1 cap1 base2 cap2 = true ↔ base1 < base2 + cap2 ∧ base2 < base1 + cap1 := by
  simp [extentsOverlap]

/-- Two extents with no cell in common: one ends where the other begins, or before. -/
theorem extentsOverlap_eq_false_iff (base1 cap1 base2 cap2 : Nat) :
    extentsOverlap base1 cap1 base2 cap2 = false ↔ base2 + cap2 ≤ base1 ∨ base1 + cap1 ≤ base2 := by
  rw [← Bool.not_eq_true, extentsOverlap_iff]
  omega

theorem State.pins_ne_zero_iff : s.pins clip ≠ 0 ↔ ∃ e, s.clips.get clip = some e ∧ e.pins ≠ 0 := by
  unfold State.pins
  cases s.clips.get clip <;> simp

theorem State.pins_eq_zero_iff : s.pins clip = 0 ↔ ∀ e, s.clips.get clip = some e → e.pins = 0 := by
  unfold State.pins
  cases s.clips.get clip <;> simp

/-! ## The fields of CLIP.DEFINE (R122) -/

/-- The clip that the fields of CLIP.DEFINE ask for: OPEN, with nothing written. -/
def definedClip (b : ClipDefineBody) : ClipEntry :=
  { ready := false, base := b.base.toNat, capacity := b.capacity.toNat, duration := b.duration.toNat, clock := b.clock
    period := b.period.toNat, written := 0, lastDue := none, highest := none, pins := 0 }

/-- The duration has no bound of its own above: its field holds no more. -/
theorem readClipDefine_eq (b : ClipDefineBody) : readClipDefine b =
    if b.base.toNat ≤ 4194303 ∧ 1 ≤ b.capacity.toNat ∧ b.base.toNat + b.capacity.toNat ≤ 4194304 ∧
        1 ≤ b.duration.toNat ∧ b.period.toNat ∈ Config.slotPeriods then some (definedClip b)
    else none := by
  have hduration : b.duration.toNat ≤ 16777215 := by have := b.duration.isLt; omega
  unfold readClipDefine
  simp only [readRange, readPeriod, clipAreaCells, hduration, Nat.zero_le, true_and, and_true]
  by_cases hbase : b.base.toNat ≤ 4194303
  · have hextent : b.capacity.toNat ≤ 4194304 - b.base.toNat ↔ b.base.toNat + b.capacity.toNat ≤ 4194304 := by omega
    by_cases hcap : 1 ≤ b.capacity.toNat ∧ b.base.toNat + b.capacity.toNat ≤ 4194304
    · by_cases hdur : 1 ≤ b.duration.toNat
      · by_cases hperiod : b.period.toNat ∈ Config.slotPeriods <;> simp [hbase, hextent, hcap, hdur, hperiod, definedClip]
      · simp [hbase, hcap, hdur]
    · simp [hbase, hextent, hcap, ← and_assoc]
  · simp [hbase]

/-! ## The Clip Store's answers -/

theorem handleClipDefine_unread (h : readClipDefine b = none) : handleClipDefine b s = .refuse .range := by
  unfold handleClipDefine
  rw [h]

theorem handleClipDefine_notEmpty (h : readClipDefine b = some (definedClip b)) (hheld : s.clips.get b.clip.toNat ≠ none) :
    handleClipDefine b s = .refuse .busy := by
  unfold handleClipDefine
  simp only [h]
  rw [if_pos (Option.isSome_iff_ne_none.mpr hheld)]

/-- CLIP.DEFINE of an EMPTY clip turns on the extents of the clips that are not EMPTY (R120, R122). -/
theorem handleClipDefine_empty (h : readClipDefine b = some (definedClip b)) (hempty : s.clips.get b.clip.toNat = none) :
    handleClipDefine b s =
      if s.clips.someSuch (fun _ e => extentsOverlap b.base.toNat b.capacity.toNat e.base e.capacity) then
        .refuse .overlap
      else .ok { s with clips := s.clips.put b.clip.toNat (definedClip b) } [] := by
  unfold handleClipDefine
  simp only [h]
  exact if_neg (by simp [hempty])

theorem handleClipClose_empty (h : s.clips.get clip = none) : handleClipClose clip s = .refuse .state := by
  unfold handleClipClose
  rw [h]

theorem handleClipClose_held {e : ClipEntry} (h : s.clips.get clip = some e) :
    handleClipClose clip s =
      if e.ready = true then .refuse .state
      else if e.written = 0 then .refuse .emptyClip
      else .ok { s with clips := s.clips.put clip { e with ready := true } } [] := by
  unfold handleClipClose
  simp only [h, Nat.lt_one_iff]

theorem handleClipDelete_pinned (h : s.pins clip ≠ 0) : handleClipDelete clip s = .refuse .inUse :=
  if_pos h

theorem handleClipDelete_unpinned (h : s.pins clip = 0) :
    handleClipDelete clip s = .ok { s with clips := s.clips.del clip } [] :=
  if_neg (not_not_intro h)

theorem exec_clipDefine_handled {tag : BitVec 16} (h : s.mayTake (.clipDefine tag b)) :
    exec (.clipDefine tag b) s = .next (s.answered 0x0501#16 tag (handleClipDefine b s)) :=
  congrArg Host.Outcome.next (State.request_handled _ _ _ h rfl)

theorem exec_clipClose_handled {tag : BitVec 16} {clip : Byte} (h : s.mayTake (.clipClose tag clip)) :
    exec (.clipClose tag clip) s = .next (s.answered 0x0503#16 tag (handleClipClose clip.toNat s)) :=
  congrArg Host.Outcome.next (State.request_handled _ _ _ h rfl)

theorem exec_clipDelete_handled {tag : BitVec 16} {clip : Byte} (h : s.mayTake (.clipDelete tag clip)) :
    exec (.clipDelete tag clip) s = .next (s.answered 0x0504#16 tag (handleClipDelete clip.toNat s)) :=
  congrArg Host.Outcome.next (State.request_handled _ _ _ h rfl)

end

/-! ## The statement -/

/-- Settles O36: each clause is one branch of the Clip Store's answer, the checks in their order. -/
theorem clipDefineCloseDelete : Obligations.ClipDefineCloseDelete := by
  unfold Obligations.ClipDefineCloseDelete
  refine ⟨fun tag b s hmay hout => ?_, fun tag b s hbase hcap hextent hdur hperiod hmay => ?_,
    fun tag clip s => ⟨fun hmay => ⟨fun hempty => ?_, fun e he => ?_⟩,
      fun hmay => ⟨fun hpinned => ?_, fun hunpinned => ?_⟩⟩⟩
  · have hunread : readClipDefine b = none := by
      rw [readClipDefine_eq, if_neg]
      rintro ⟨hbase, hcap, hextent, hdur, hperiod⟩
      simp only [hperiod, not_true_eq_false, or_false] at hout
      omega
    rw [exec_clipDefine_handled hmay, handleClipDefine_unread hunread, State.answered_refuse]
  · have hread : readClipDefine b = some (definedClip b) :=
      (readClipDefine_eq b).trans (if_pos ⟨hbase, hcap, hextent, hdur, hperiod⟩)
    rw [exec_clipDefine_handled hmay]
    refine ⟨fun hheld => ?_, fun hempty hshared => ?_, fun hempty hapart => ?_⟩
    · rw [handleClipDefine_notEmpty hread hheld, State.answered_refuse]
    · obtain ⟨j, e, hmem, hmeet⟩ := hshared
      rw [handleClipDefine_empty hread hempty,
        if_pos (Table.someSuch_iff.mpr ⟨j, e, hmem, (extentsOverlap_iff ..).mpr hmeet⟩), State.answered_refuse]
    · have hfree := Table.someSuch_eq_false_iff.mpr fun j e hmem =>
        (extentsOverlap_eq_false_iff b.base.toNat b.capacity.toNat e.base e.capacity).mpr (hapart j e hmem)
      rw [handleClipDefine_empty hread hempty, hfree, if_neg Bool.false_ne_true, State.answered_ok]
      rfl
  · rw [exec_clipClose_handled hmay, handleClipClose_empty hempty, State.answered_refuse]
  · rw [exec_clipClose_handled hmay, handleClipClose_held he]
    simp only [apply_ite (s.answered _ tag), State.answered_refuse, State.answered_ok]
  · rw [exec_clipDelete_handled hmay, handleClipDelete_pinned (State.pins_ne_zero_iff.mpr hpinned),
      State.answered_refuse]
  · rw [exec_clipDelete_handled hmay, handleClipDelete_unpinned (State.pins_eq_zero_iff.mpr hunpinned),
      State.answered_ok]

end Sys2Proof.Machine

/-! SUPPORT. Local insertion (08): what a record releases as it enters DONE, what the Insertion Engine answers to
INSERT.CANCEL and INSERT.CLEAR, and the statements about them and about the reset. -/

namespace Sys2Proof.Machine

section

variable {s : State} {r : Insertion} {k : Nat}

/-! ## Records and the services they hold (R140) -/

theorem Insertion.holds_of_primed (h : r.state = .primed) : r.holds = true := by
  simp [Insertion.holds, h]

theorem Insertion.not_holds_of_armed (h : r.state = .armed) : ¬r.holds = true := by
  simp [Insertion.holds, h]

/-! ## Holds released (R133) -/

theorem namesClip_iff (steps : List ReelStep) (clip : Nat) : namesClip steps clip = true ↔ .play clip ∈ steps := by
  simp [namesClip]

/-- Holds lowered by one are what an active record of the reel releases. -/
theorem State.changeHolds_releases (reel : Nat) (s : State) : s.releases reel (s.changeHolds reel (fun n => n - 1)) := by
  refine ⟨fun j => ?_, fun j => ?_⟩
  · by_cases hj : j = reel
    · subst hj
      simp only [State.changeHolds, Table.get_update_same, if_true]
    · simp only [State.changeHolds, Table.get_update_other _ _ hj, if_neg hj, Option.map_id']
  · simp only [State.changeHolds, Table.get_mapAt, namesClip_iff]

/-! ## An active record enters DONE (R133, R140, R151) -/

theorem State.enterDone_of_holds (h : r.holds = true) (result : Result) :
    s.enterDone k r result =
      ((((s.releaseChannel r.channel).setSplice r.service .network none).changeHolds r.reel (fun n => n - 1)).putRecord k
        (r.ended result s.currentPos)) := by
  unfold State.enterDone
  rw [if_pos h]
  rfl

theorem State.enterDone_of_not_holds (h : ¬r.holds = true) (result : Result) :
    s.enterDone k r result =
      (s.changeHolds r.reel (fun n => n - 1)).putRecord k (r.ended result s.currentPos) := by
  unfold State.enterDone
  rw [if_neg h]

/-- Entering DONE writes the record and changes no other table than the services, the channels, the reels and the clips. -/
theorem State.enterDone_frame (k : Nat) (r : Insertion) (result : Result) (s : State) :
    s.enterDone k r result = { s with
      insertions := s.insertions.put k (r.ended result s.currentPos)
      services := (s.enterDone k r result).services
      channels := (s.enterDone k r result).channels
      reels := (s.enterDone k r result).reels
      clips := (s.enterDone k r result).clips } := by
  by_cases h : r.holds = true
  · rw [State.enterDone_of_holds h]
    rfl
  · rw [State.enterDone_of_not_holds h]
    rfl

theorem State.enterDone_releases (k : Nat) (r : Insertion) (result : Result) (s : State) :
    s.releases r.reel (s.enterDone k r result) := by
  by_cases h : r.holds = true
  · rw [State.enterDone_of_holds h]
    exact ((s.releaseChannel r.channel).setSplice r.service .network none).changeHolds_releases r.reel
  · rw [State.enterDone_of_not_holds h]
    exact s.changeHolds_releases r.reel

theorem State.enterDone_channels_of_holds {c : Nat} (h : r.holds = true) (hc : r.channel = some c) (result : Result) :
    (s.enterDone k r result).channels = s.channels.del c := by
  simp [State.enterDone_of_holds h, State.releaseChannel, hc]

theorem State.enterDone_services_of_holds {x : ServiceEntry} (h : r.holds = true) (hx : s.services.get r.service = some x)
    (result : Result) :
    (s.enterDone k r result).services = s.services.put r.service { x with splice := .network, active := none } := by
  rw [State.enterDone_of_holds h]
  exact Table.update_of_get _ hx

/-! ## The Insertion Engine's answers (R143, R145) -/

theorem handleInsertCancel_outOfRange (h : 15 < k) : handleInsertCancel k s = .refuse .range := if_pos h

theorem handleInsertCancel_idle (hk : k ≤ 15) (h : s.insertions.get k = none) :
    handleInsertCancel k s = .refuse .state := by
  unfold handleInsertCancel
  rw [if_neg (Nat.not_lt.mpr hk), h]

theorem handleInsertCancel_held (hk : k ≤ 15) (h : s.insertions.get k = some r) :
    handleInsertCancel k s =
      if r.state = .armed ∨ r.state = .primed then .ok (s.enterDone k r .abortedHost) [] else .refuse .state := by
  unfold handleInsertCancel
  simp only [if_neg (Nat.not_lt.mpr hk), h]

theorem handleInsertClear_outOfRange (h : 15 < k) : handleInsertClear k s = .refuse .range := if_pos h

theorem handleInsertClear_done (hk : k ≤ 15) (h : s.insertions.get k = some r) (hdone : r.state = .done) :
    handleInsertClear k s = .ok { s with insertions := s.insertions.del k } [] := by
  unfold handleInsertClear
  simp only [if_neg (Nat.not_lt.mpr hk), h, if_pos hdone]

theorem handleInsertClear_notDone (hk : k ≤ 15) (h : ∀ r, s.insertions.get k = some r → r.state ≠ .done) :
    handleInsertClear k s = .refuse .state := by
  unfold handleInsertClear
  rw [if_neg (Nat.not_lt.mpr hk)]
  cases hr : s.insertions.get k with
  | none => rfl
  | some r => exact if_neg (h r hr)

theorem exec_insertCancel_handled {tag : BitVec 16} {record : Byte} (h : s.mayTake (.insertCancel tag record)) :
    exec (.insertCancel tag record) s = .next (s.answered 0x0602#16 tag (handleInsertCancel record.toNat s)) :=
  congrArg Host.Outcome.next (State.request_handled _ _ _ h rfl)

theorem exec_insertClear_handled {tag : BitVec 16} {record : Byte} (h : s.mayTake (.insertClear tag record)) :
    exec (.insertClear tag record) s = .next (s.answered 0x0604#16 tag (handleInsertClear record.toNat s)) :=
  congrArg Host.Outcome.next (State.request_handled _ _ _ h rfl)

end

/-! ## The statements -/

/-- Settles O40: INSERT.CANCEL of an ARMED or a PRIMED record is the record entering DONE, where only a PRIMED one holds
its service; every other clause is a refusal or the deletion of a DONE record. -/
theorem insertCancelAndClear : Obligations.InsertCancelAndClear := by
  unfold Obligations.InsertCancelAndClear
  refine ⟨fun tag record s hmay => ⟨fun hout => ?_, fun hin hother => ?_, fun r hin hr hactive =>
      ⟨s.enterDone record.toNat r .abortedHost, ?_, s.enterDone_frame .., fun harmed => ?_,
        fun c hprimed hc => s.enterDone_channels_of_holds (r.holds_of_primed hprimed) hc _,
        fun x hprimed hx => s.enterDone_services_of_holds (r.holds_of_primed hprimed) hx _,
        s.enterDone_releases ..⟩⟩,
    fun tag record s hmay => ⟨fun hout => ?_, fun hin hother => ?_, fun r hin hr hdone => ?_⟩⟩
  · rw [exec_insertCancel_handled hmay, handleInsertCancel_outOfRange hout, State.answered_refuse]
  · rw [exec_insertCancel_handled hmay]
    obtain hidle | ⟨r, hr, hna, hnp⟩ := hother
    · rw [handleInsertCancel_idle hin hidle, State.answered_refuse]
    · rw [handleInsertCancel_held hin hr, if_neg (not_or.mpr ⟨hna, hnp⟩), State.answered_refuse]
  · rw [exec_insertCancel_handled hmay, handleInsertCancel_held hin hr, if_pos hactive, State.answered_ok]
  · rw [State.enterDone_of_not_holds (r.not_holds_of_armed harmed)]
    exact ⟨rfl, rfl⟩
  · rw [exec_insertClear_handled hmay, handleInsertClear_outOfRange hout, State.answered_refuse]
  · rw [exec_insertClear_handled hmay, handleInsertClear_notDone hin hother, State.answered_refuse]
  · rw [exec_insertClear_handled hmay, handleInsertClear_done hin hr hdone, State.answered_ok]

/-- Settles O3: at reset the tables are empty, and an entry that is not listed has the default of each reading. -/
theorem resetInsertionEngine : Obligations.ResetInsertionEngine := by
  unfold Obligations.ResetInsertionEngine
  exact ⟨rfl, rfl, fun _ => ⟨rfl, rfl⟩, fun _ => rfl, fun _ => rfl⟩

end Sys2Proof.Machine

/-! SUPPORT. The laws every step keeps, packaged once: what a law has to withstand, update by update, and that every
command then keeps it. Each law of Safety.lean is afterwards one list of small facts about these updates. -/

namespace Sys2Proof.Machine

/-! ## The part of the state that the laws read -/

/-- The fields of a link that a law reads. -/
def LinkState.governed (k : LinkState) : LinkState :=
  { LinkState.reset with delineation := k.delineation, handOn := k.handOn, up := k.up }

/-- The state with every field that no law reads at its reset value. -/
def State.governed (s : State) : State :=
  { State.reset with
    time := { TimeUnit.reset with
      tick := s.time.tick, stepState := s.time.stepState, integrator := s.time.integrator, steering := s.time.steering
      config := { TimeConfig.reset with policy := s.time.config.policy } }
    site := { SiteConfig.reset with period := s.site.period, output := s.site.output, mute := s.site.mute }
    linkA := s.linkA.governed
    linkB := s.linkB.governed
    origins := s.origins
    streams := s.streams
    services := s.services
    toRelease := s.toRelease
    ring := s.ring
    assembler := { Assembler.reset with
      bank0 := { PlanBank.reset with entries := s.assembler.bank0.entries }
      bank1 := { PlanBank.reset with entries := s.assembler.bank1.entries }
      carousel := s.assembler.carousel }
    output := { OutputPort.reset with permit := s.output.permit }
    clips := s.clips
    clipCells := s.clipCells
    reels := s.reels
    insertions := s.insertions
    channels := s.channels
    control := { ControlLink.reset with notices := s.control.notices }
    secondDue := s.secondDue
    heldNotices := s.heldNotices
    pending := s.pending }

/-- What a law of the reels says of one reel's steps (R130). -/
def reelStepsSound (steps : List ReelStep) : Prop :=
  steps ≠ [] ∧ steps.length ≤ 24 ∧ reelBalanced steps ∧ (∀ i, stepDepth steps i ≤ 4) ∧ bodiesHold steps

/-- No record at this index holds a service. -/
def State.idleAt (s : State) (k : Nat) : Prop :=
  s.insertions.get k = none ∨ ∃ r, (k, r) ∈ s.insertions ∧ r.holds = false

/-- The service a record names is known to be valid: it is listed, or a record of this index that is not DONE names it. -/
def State.knownService (s : State) (k service : Nat) : Prop :=
  (s.services.get service).isSome = true ∨ ∃ r, (k, r) ∈ s.insertions ∧ r.state ≠ .done ∧ r.service = service

/-- The record at the index holds the service (R140). -/
def State.holdsAt (s : State) (k service : Nat) : Prop :=
  ∃ r, (k, r) ∈ s.insertions ∧ r.holds = true ∧ r.service = service

/-- A record may take its service over, or give it up (R140): the record at its index holds that service already, or it
holds none and the service is free. -/
def State.mayTurn (s : State) (k service : Nat) : Prop :=
  s.holdsAt k service ∨
    (s.idleAt k ∧ s.knownService k service ∧ (s.spliceOf service = .network ∨ s.holder service = none))

/-- A law that reads the governed part alone does not tell two states apart that agree there. -/
theorem congr_of_governed {P : State → Prop} (hP : ∀ s, P s ↔ P s.governed) (s t : State)
    (h : s.governed = t.governed) (hs : P s) : P t :=
  (hP t).mpr (h ▸ (hP s).mp hs)

/-- What a law withstands. `W` is what the law says of a cell on its way to a slot. -/
structure Law (P : State → Prop) (W : Bytes → Prop) : Prop where
  congr : ∀ s t : State, s.governed = t.governed → P s → P t
  setNotices : ∀ (s : State) ns, ns.length ≤ max 64 s.control.notices.length → P s →
    P { s with control := { s.control with notices := ns } } := by exact fun _ _ _ h => h
  setHeld : ∀ (s : State) held, (held.isSome = true → s.heldNotices.isSome = true ∨ s.secondDue = true) → P s →
    P { s with heldNotices := held } := by exact fun _ _ _ h => h
  setSecondDue : ∀ (s : State) due, due = true ∨ s.heldNotices = none → P s →
    P { s with secondDue := due } := by exact fun _ _ _ h => h
  setTick : ∀ (s : State) n, n < 10000000 → P s →
    P { s with time := { s.time with tick := n } } := by exact fun _ _ _ h => h
  setIntegrator : ∀ (s : State) n, -134217727 ≤ n ∧ n ≤ 134217727 → P s →
    P { s with time := { s.time with integrator := n } } := by exact fun _ _ _ h => h
  setSteering : ∀ (s : State) n, -524288 ≤ n ∧ n ≤ 524287 → P s →
    P { s with time := { s.time with steering := n } } := by exact fun _ _ _ h => h
  setStepState : ∀ (s : State) new, P s →
    P ({ s with time := { s.time with stepState := new } } : State).dropPermit := by exact fun _ _ h => h
  dropPermit : ∀ s : State, P s → P s.dropPermit := by exact fun _ h => h
  assertPermit : ∀ s : State, P s → P s.assertPermit := by exact fun _ h => h
  setLink : ∀ (s : State) l k, ((s.link l).up = true → k.up = true) →
    (∀ taken, k.delineation = .assembling taken → (s.link l).delineation = .assembling taken ∨ taken.length < 200) →
    k.handOn.length ≤ max 4 (s.link l).handOn.length → (∀ c ∈ k.handOn, c ∈ (s.link l).handOn ∨ W c.cell) → P s →
    P (s.setLink l k) := by exact fun _ _ _ _ _ _ _ h => h
  setOrigins : ∀ (s : State) t, (s.origins.wf = true → Table.wf t = true) → P s →
    P { s with origins := t } := by exact fun _ _ _ h => h
  setStreams : ∀ (s : State) t, (s.streams.wf = true → Table.wf t = true) → P s →
    P { s with streams := t } := by exact fun _ _ _ h => h
  setServices : ∀ (s : State) t, (s.services.wf = true → Table.wf t = true) →
    (∀ k, ({ s with services := t } : State).spliceOf k = s.spliceOf k ∧
      ({ s with services := t } : State).activeOf k = s.activeOf k ∧
      ((s.services.get k).isSome = true → (Table.get t k).isSome = true)) → P s →
    P { s with services := t } := by exact fun _ _ _ _ h => h
  delService : ∀ (s : State) k, (∀ j r, (j, r) ∈ s.insertions → r.state ≠ .done → r.service ≠ k) → P s →
    P { s with services := s.services.del k } := by exact fun _ _ _ h => h
  setRelease : ∀ (s : State) q, (∀ h ∈ q, h ∈ s.toRelease ∨ W h.item.cell) → P s →
    P { s with toRelease := q } := by exact fun _ _ _ h => h
  setRing : ∀ (s : State) t, (s.ring.wf = true → Table.wf t = true) →
    (∀ p ∈ t, p ∈ s.ring ∨ (p.2.tag % 65536 = p.1 ∧ W p.2.cell)) → P s →
    P { s with ring := t } := by exact fun _ _ _ _ h => h
  setAssembler : ∀ (s : State) a,
    (s.assembler.bank0.entries.wf = true → s.assembler.bank1.entries.wf = true →
      a.bank0.entries.wf = true ∧ a.bank1.entries.wf = true) →
    (∀ c ∈ a.carousel, c ∈ s.assembler.carousel ∨ c.length = 184) → P s →
    P { s with assembler := a } := by exact fun _ _ _ _ h => h
  setClips : ∀ (s : State) t, (s.clips.wf = true → Table.wf t = true) → P s →
    P { s with clips := t } := by exact fun _ _ _ h => h
  setClipCells : ∀ (s : State) t, (s.clipCells.wf = true → Table.wf t = true) →
    (∀ p ∈ t, p ∈ s.clipCells ∨ p.2.payload.length = 180) → P s →
    P { s with clipCells := t } := by exact fun _ _ _ _ h => h
  setReels : ∀ (s : State) t, (s.reels.wf = true → Table.wf t = true) →
    (∀ p ∈ t, (∃ q ∈ s.reels, p.2.steps = q.2.steps) ∨ reelStepsSound p.2.steps) → P s →
    P { s with reels := t } := by exact fun _ _ _ _ h => h
  setChannels : ∀ (s : State) t, (s.channels.wf = true → Table.wf t = true) → P s →
    P { s with channels := t } := by exact fun _ _ _ h => h
  setInsertions : ∀ (s : State) t, (s.insertions.wf = true → Table.wf t = true) →
    (∀ k, (Table.get t k).map (fun r => (r.state, r.service)) =
      (s.insertions.get k).map (fun r => (r.state, r.service))) → P s →
    P { s with insertions := t } := by exact fun _ _ _ _ h => h
  putKept : ∀ (s : State) k old new, (k, old) ∈ s.insertions → new.state = old.state → new.service = old.service →
    P s → P (s.putRecord k new) := by exact fun _ _ _ _ _ _ _ h => h
  putIdle : ∀ (s : State) k new, s.idleAt k → new.holds = false → (new.state ≠ .done → s.knownService k new.service) →
    P s → P (s.putRecord k new) := by exact fun _ _ _ _ _ _ h => h
  delDone : ∀ (s : State) k r, s.insertions.get k = some r → r.state = .done → P s →
    P { s with insertions := s.insertions.del k } := by exact fun _ _ _ _ _ h => h
  turn : ∀ (s : State) k new, s.mayTurn k new.service → P s →
    P ((s.setSplice new.service new.state.spliceGiven (if new.holds then some k else none)).putRecord k new) := by
      exact fun _ _ _ _ h => h
  holdBack : ∀ s u : State, P s → P u →
    P { u with control := s.control, secondDue := true, heldNotices := some u.control.notices } := by
      exact fun _ _ _ h => h
  ofHandOn : ∀ (s : State) l c, c ∈ (s.link l).handOn → P s → W c.cell
  ofRelease : ∀ (s : State) h, h ∈ s.toRelease → P s → W h.item.cell
  ofAssembling : ∀ (s : State) l taken b, (s.link l).delineation = .assembling taken → 200 ≤ taken.length + 1 → P s →
    W ((taken ++ [b]).drop 16)
  powerOn : ∀ s : State, P s → P s.powerOn
  restart : ∀ s : State, P s → P s.restart

/-- A law that does not read the permit line withstands a change of what its condition reads as well. -/
structure LooseLaw (P : State → Prop) (W : Bytes → Prop) : Prop extends Law P W where
  setTimeFree : ∀ (s : State) config stepState, P s →
    P { s with time := { s.time with config := config, stepState := stepState } } := by exact fun _ _ _ h => h
  setSite : ∀ (s : State) site, site.period ∈ Config.slotPeriods → P s → P { s with site := site } := by
    exact fun _ _ _ h => h
  linkDown : ∀ (s : State) l, P s → P (s.setLink l { s.link l with up := false, timer := none })

/-- A law that every command keeps: what a law withstands, and the four changes that end with the permit line dropped. -/
structure StepLaw (P : State → Prop) (W : Bytes → Prop) : Prop extends Law P W where
  phaseStep : ∀ (s : State) old c e, P s → P (s.phaseStep old c e)
  linkExpire : ∀ (s : State) l, P s → P (s.linkExpire l)
  timeConfig : ∀ (s t : State) b f, handleTimeConfig b s = .ok t f → P s → P t
  applySite : ∀ (s : State) new, new.period ∈ Config.slotPeriods → P s → P (s.applySite new)

end Sys2Proof.Machine
namespace Sys2Proof.Machine

/-! ## Every operation keeps a law -/

namespace Law

variable {P : State → Prop} {W : Bytes → Prop} (L : Law P W) {s : State}

include L

/-- A law does not see a change of what it does not read. -/
theorem same {t : State} (h : P s) (he : s.governed = t.governed) : P t := L.congr s t he h

/-! ### Notices -/

theorem raise (d : NoticeDetail) (h : P s) : P (s.raise d) := by
  by_cases hr : s.control.notices.length < 64
  · rw [State.raise_room d hr]
    refine L.setNotices s _ ?_ h
    simp only [State.noticesWith, List.length_append, List.length_singleton]
    omega
  · rw [State.raise_full d (by omega)]
    exact L.same h rfl

theorem enqueueAll (ns : List Notice) (h : P s) : P { s with control := s.control.enqueueAll ns } := by
  induction ns generalizing s with
  | nil => exact h
  | cons n ns ih =>
    refine ih (s := { s with control := s.control.enqueue n }) ?_
    by_cases hr : s.control.notices.length < 64
    · rw [ControlLink.enqueue_room n hr]
      refine L.setNotices s _ ?_ h
      simp only [List.length_append, List.length_singleton]
      omega
    · rw [ControlLink.enqueue_full n (by omega)]
      exact L.same h rfl

theorem joinHeld (h : P s) : P s.joinHeld :=
  L.setHeld _ _ (fun hh => Or.inl (by simpa using hh)) (L.enqueueAll _ h)

theorem raiseTime (d : NoticeDetail) (h : P s) : P (s.raiseTime d) := L.raise d (L.joinHeld h)

/-! ### The Time Unit -/

theorem enterStep (new : StepState) (cause : StepCause) (h : P s) : P (s.enterStep new cause) :=
  L.raiseTime (.step s.time.stepState new cause 0) (L.setStepState s new h)

/-- Every service changed alike, its splice state and active insertion left as they stand. -/
theorem mapServices (f : ServiceEntry → ServiceEntry) (hs : ∀ e, (f e).splice = e.splice)
    (ha : ∀ e, (f e).active = e.active) (h : P s) : P { s with services := s.services.mapAll f } := by
  refine L.setServices s _ (Table.mapAll_wf f) (fun k => ?_) h
  cases hk : s.services.get k <;> simp [State.spliceOf, State.activeOf, hk, hs, ha]

/-- One service changed, its splice state and active insertion left as they stand. -/
theorem updateService (k : Nat) (f : ServiceEntry → ServiceEntry) (hs : ∀ e, (f e).splice = e.splice)
    (ha : ∀ e, (f e).active = e.active) (h : P s) : P (s.updateService k f) := by
  refine L.setServices s _ (Table.update_wf k f) (fun j => ?_) h
  by_cases hj : j = k
  · subst hj
    cases hk : s.services.get j <;>
      simp [State.spliceOf, State.activeOf, Table.get_update_same, hk, hs, ha]
  · simp [State.spliceOf, State.activeOf, Table.get_update_other _ _ hj]

theorem invalidateAnchors (h : P s) : P s.invalidateAnchors := L.mapServices _ (fun _ => rfl) (fun _ => rfl) h

theorem epochMove (h : P s) : P s.epochMove := by
  unfold State.epochMove
  refine L.invalidateAnchors ?_
  split
  · exact L.enterStep _ _ (L.same h rfl)
  · exact L.enterStep _ _ (L.same h rfl)
  · exact h
  · exact h

theorem beginSecond (h : P s) : P s.beginSecond := by
  unfold State.beginSecond
  split
  · exact L.same h rfl
  · next set _ =>
    have hset : ∀ t : State, s.governed = t.governed → ∀ d, P (t.raise d) := fun t ht d =>
      L.raise d (L.same h ht)
    dsimp only
    split
    · exact L.epochMove (hset _ (by split <;> rfl) _)
    · exact hset _ (by split <;> rfl) _

theorem countHoldover (h : P s) : P s.countHoldover := by
  unfold State.countHoldover
  split
  · split
    · exact L.enterStep _ _ (L.same h rfl)
    · exact L.same h rfl
  all_goals exact h

theorem swapAtBoundary (h : P s) : P s.swapAtBoundary := by
  unfold State.swapAtBoundary
  split
  · exact h
  · dsimp only
    split
    · exact h
    · exact L.raise _ (L.same h rfl)

/-- The tick count returns to 0 and a boundary that was due is no longer due. -/
theorem newSecond (h : P s) :
    P { s with
      time := { s.time with tick := 0 }
      secondDue := false
      heldNotices := none } :=
  L.setSecondDue _ false (Or.inr rfl) (L.setHeld _ none (by simp) (L.setTick s 0 (by omega) h))

theorem takeSecondBoundary (h : P s) : P s.takeSecondBoundary :=
  L.swapAtBoundary (L.countHoldover (L.beginSecond (L.same (L.newSecond h) rfl)))

theorem takeDueSecond (h : P s) : P s.takeDueSecond := by
  unfold State.takeDueSecond
  split
  · exact L.setSecondDue _ false (Or.inr rfl) (L.setHeld _ none (by simp) (L.joinHeld h))
  · exact L.takeSecondBoundary h

theorem updateIntegrator (e : Int) (h : P s) : P (s.updateIntegrator e) := by
  unfold State.updateIntegrator
  have hint := L.setIntegrator s _
    (clamp_bounds (s.time.integrator + s.time.config.ki * e) (lo := -134217727) (hi := 134217727) (by omega)) h
  dsimp only
  split
  · exact L.raiseTime _ (L.same hint rfl)
  · exact L.same hint rfl

theorem updateSteering (e : Int) (h : P s) : P (s.updateSteering e) := by
  unfold State.updateSteering
  have hsteer := L.setSteering s _
    (clamp_bounds (divRound256 (s.time.config.kp * e + s.time.integrator)) (lo := -524288) (hi := 524287) (by omega)) h
  dsimp only
  split
  · exact L.raiseTime _ (L.same hsteer rfl)
  · exact L.same hsteer rfl

theorem loopUpdate (e : Int) (h : P s) : P (s.loopUpdate e) := L.updateSteering e (L.updateIntegrator e h)

theorem wander (e : Int) (h : P s) : P (s.wander e) := by
  unfold State.wander
  split
  · exact L.same h rfl
  · exact L.same (L.raiseTime (.wander e) h) rfl

theorem newReference (c : Nat) (e : Int) (interval : Option Nat) (h : P s) : P (s.newReference c e interval) := L.same h rfl

theorem adoptEpoch (y : Epoch) (h : P s) : P (s.adoptEpoch y) := by
  unfold State.adoptEpoch
  split
  · split
    · exact L.same h rfl
    · split
      · exact L.same h rfl
      · exact L.epochMove (L.raiseTime _ (L.same h rfl))
  · exact L.raiseTime _ (L.same h rfl)

theorem loseReference (h : P s) : P s.loseReference := by
  unfold State.loseReference
  split
  · exact h
  · exact h
  · exact L.enterStep _ _ (L.same h rfl)
  · split
    · exact L.enterStep _ _ (L.same h rfl)
    · exact L.enterStep _ _ (L.same h rfl)

/-! ### Links -/

omit L in
/-- A count on a carried stream keeps the form of the Stream Table. -/
theorem countStream_wf {streams : Table StreamEntry} (index origin label : Nat)
    (cls : StreamClass) (f : StreamCounts → StreamCounts) (h : streams.wf = true) :
    (countStream streams index origin label cls f).wf = true := by
  unfold countStream
  split
  · split
    · exact Table.put_wf _ _ h
    · exact h
  · exact h

/-- A link's receiver changed, its hand-on queue and delineation state left as they stand. -/
theorem setLinkKept (l : Link) (k : LinkState) (hup : (s.link l).up = true → k.up = true)
    (hd : k.delineation = (s.link l).delineation) (hq : k.handOn = (s.link l).handOn) (h : P s) : P (s.setLink l k) := by
  refine L.setLink s l k hup (fun taken ht => Or.inl (hd ▸ ht)) ?_ (fun c hc => Or.inl (hq ▸ hc)) h
  rw [hq]
  omega

theorem countLink (l : Link) (f : LinkCounts → LinkCounts) (h : P s) : P (s.countLink l f) :=
  L.setLinkKept l _ id rfl rfl h

theorem feedNotice (restored : Bool) (l : Link) (h : P s) : P (s.feedNotice restored l) := by
  unfold State.feedNotice
  split
  · exact h
  · exact L.raise _ h

theorem linkGood (l : Link) (h : P s) : P (s.linkGood l) := by
  unfold State.linkGood
  split
  · exact L.setLinkKept l _ id rfl rfl h
  · exact L.feedNotice _ _ (L.raise _ (L.setLinkKept l _ (fun _ => rfl) rfl rfl h))

theorem joinHandOn (l : Link) (c : GoodCell) (hc : W c.cell) (h : P s) : P (s.joinHandOn l c) := by
  unfold State.joinHandOn
  split
  · refine L.setLink s l _ id (fun _ => Or.inl) ?_ (fun x hx => ?_) h
    · simp only [List.length_append, List.length_singleton]
      omega
    · obtain hx | rfl := by simpa using hx
      · exact Or.inl hx
      · exact Or.inr hc
  · exact L.countLink l _ h

theorem completeCell (l : Link) (bytes : Bytes) (hw : W (bytes.drop 16)) (h : P s) : P (s.completeCell l bytes) := by
  have hcells := L.countLink l (fun k => { k with cells := bump k.cells }) h
  unfold State.completeCell
  dsimp only
  split
  · exact L.countLink l _ hcells
  · split
    · exact L.countLink l _ hcells
    · exact L.joinHandOn l _ hw (L.linkGood l hcells)

/-- The delineation state replaced by one that holds fewer bytes than a cell has. -/
theorem setDelineation (l : Link) (d : Delineation) (hd : ∀ taken, d = .assembling taken → taken.length < 200) (h : P s) :
    P (s.setDelineation l d) :=
  L.setLink s l _ id (fun taken ht => Or.inr (hd taken ht)) (Nat.le_max_right ..) (fun _ => Or.inl) h

theorem takeStart (l : Link) (b : Byte) (h : P s) : P (s.takeStart l b) := by
  have hd : ∀ taken, Delineation.assembling [b] = .assembling taken → taken.length < 200 := by
    rintro _ ⟨⟩
    simp
  unfold State.takeStart
  split
  · exact L.setDelineation l _ hd (L.countLink l _ h)
  · exact L.setDelineation l _ hd h
  · exact L.setDelineation l _ hd h

theorem takeData (l : Link) (b : Byte) (h : P s) : P (s.takeData l b) := by
  unfold State.takeData
  split
  · exact h
  · next taken ht =>
    split
    · refine L.setDelineation l _ ?_ h
      rintro _ ⟨⟩
      simpa
    · refine L.completeCell l _ (L.ofAssembling s l taken b ht (by omega) h) (L.setDelineation l _ ?_ h)
      rintro _ ⟨⟩
  · exact h
  · refine L.setDelineation l _ ?_ (L.countLink l _ h)
    rintro _ ⟨⟩

/-! ### The Classifier and the Merge Unit -/

theorem unknownOrigin (c : GoodCell) (h : P s) : P (s.unknownOrigin c) := by
  have hc := L.countLink c.link (fun k => { k with unknownOrigin := bump k.unknownOrigin }) h
  unfold State.unknownOrigin
  dsimp only
  split
  · exact hc
  · exact L.raise _ (L.setLinkKept c.link _ id rfl rfl hc)

theorem putStream (k : Nat) (e : StreamEntry) (h : P s) : P { s with streams := s.streams.put k e } :=
  L.setStreams s _ (Table.put_wf k e) h

theorem handOut (x : HandedCell) (hx : W x.item.cell) (h : P s) : P (s.handOut x) := by
  have hq : P { s with toRelease := s.toRelease ++ [x] } := by
    refine L.setRelease s _ (fun y hy => ?_) h
    obtain hy | rfl := by simpa using hy
    · exact Or.inl hy
    · exact Or.inr hx
  unfold State.handOut
  split
  · exact hq
  · exact hq
  · exact L.same hq rfl
  · exact L.same h rfl
  · exact h

theorem mergeTaken (c : GoodCell) (index origin : Nat) (e : StreamEntry) (hc : W c.cell) (h : P s) :
    P (s.mergeTaken c index origin e) := by
  unfold State.mergeTaken
  split
  · exact L.countLink _ _ (L.putStream index _ h)
  · exact L.putStream index _ h
  · refine L.handOut _ hc ?_
    have hacc := fun record lost => L.countLink c.link (fun k => { k with firstArrivals := bump k.firstArrivals })
      (L.putStream index { e with merge := record, counts := { e.counts with
        accepted := bump e.counts.accepted, lost := bumpBy lost e.counts.lost } } h)
    dsimp only
    split
    · exact L.raise _ (hacc _ _)
    · exact hacc _ _

theorem classify (c : GoodCell) (hc : W c.cell) (h : P s) : P (s.classify c) := by
  unfold State.classify
  split
  · exact L.unknownOrigin c h
  · split
    · exact L.countLink _ _ h
    · exact L.mergeTaken c _ _ _ hc h

theorem takeCell (l : Link) (h : P s) : P (s.takeCell l) := by
  unfold State.takeCell
  split
  · exact h
  · next c rest hq =>
    refine L.classify _ (L.ofHandOn s l c (by simp [hq]) h) (L.setLink s l _ id (fun _ => Or.inl) ?_ (fun x hx => ?_) h)
    · simp only [hq, List.length_cons]
      omega
    · exact Or.inl (hq ▸ List.mem_cons_of_mem c hx)

/-! ### The Release Unit -/

theorem countHanded (x : HandedCell) (f : StreamCounts → StreamCounts) (h : P s) : P (s.countHanded x f) :=
  L.setStreams s _ (countStream_wf _ _ _ _ _) h

theorem place (x : HandedCell) (g a w : Nat) (hx : W x.item.cell) (h : P s) : P (s.place x g a w) := by
  unfold State.place
  split
  · exact L.countHanded x _ h
  · exact L.countHanded x _ h
  · exact L.countHanded x _ h
  · next i hi =>
    have hig : g % 65536 = i := by
      unfold State.releaseOutcome at hi
      split at hi
      · cases hi
      · split at hi
        · cases hi
        · split at hi
          · cases hi
          · split at hi
            · cases hi
            · exact ReleaseOutcome.written.inj hi
    refine L.setRing s _ (Table.put_wf i _) (fun p hp => ?_) h
    rcases Table.mem_put hp with rfl | hp
    · exact Or.inr ⟨hig, hx⟩
    · exact Or.inl hp

theorem releaseCell (x : HandedCell) (hx : W x.item.cell) (h : P s) : P (s.releaseCell x) := by
  unfold State.releaseCell
  split
  · dsimp only
    split
    · exact L.place x _ _ _ hx (L.countHanded x _ h)
    · exact L.place x _ _ _ hx h
  · exact L.countHanded x _ h

theorem takeRelease (h : P s) : P s.takeRelease := by
  unfold State.takeRelease
  split
  · exact h
  · next x rest hq =>
    refine L.releaseCell x (L.ofRelease s x (by simp [hq]) h) (L.setRelease s rest (fun y hy => ?_) h)
    exact Or.inl (hq ▸ List.mem_cons_of_mem x hy)

theorem setOffset (stream : Nat) (found : Option Int) (h : P s) : P (s.setOffset stream found) := by
  unfold State.setOffset
  split
  · exact L.same h rfl
  · dsimp only
    split
    · exact L.same h rfl
    · exact L.raise _ (L.same h rfl)

theorem timingCell (x : HandedCell) (h : P s) : P (s.timingCell x) := by
  unfold State.timingCell
  dsimp only
  split
  · exact L.countHanded x _ h
  · split
    · exact L.adoptEpoch _ (L.setOffset _ _ (L.same h rfl))
    · exact L.countHanded x _ h

theorem takeTiming (h : P s) : P s.takeTiming := by
  unfold State.takeTiming
  split
  · exact h
  · exact L.timingCell _ (L.same h rfl)

end Law
end Sys2Proof.Machine
namespace Sys2Proof.Machine

/-! ## The due cell of a channel -/

/-- A due cell belongs to the record its channel plays for, which is LOCAL (R156). -/
theorem State.dueCell_local {s : State} {c : Nat} {d : DueCell} (h : s.dueCell c = some d) :
    s.insertions.get d.record = some d.insertion ∧ d.insertion.state = .onLocal := by
  unfold State.dueCell at h
  split at h
  · cases h
  · next ch _ =>
    split at h
    · next r p hr _ =>
      split at h
      · next hl =>
        split at h
        · next d' hd =>
          split at h
          · have he : d'.record = ch.record ∧ d'.insertion = r := by
              unfold State.nextCellOf at hd
              split at hd
              · dsimp only at hd
                split at hd
                · cases hd
                  exact ⟨rfl, rfl⟩
                · cases hd
              · cases hd
            cases h
            rw [he.1, he.2]
            exact ⟨hr, hl⟩
          · cases h
        · cases h
      · cases h
    · cases h

namespace Law

variable {P : State → Prop} {W : Bytes → Prop} (L : Law P W) {s : State}

include L

/-! ### Channels, reels and clips -/

theorem releaseChannel (c : Option Nat) (h : P s) : P (s.releaseChannel c) := by
  refine L.setChannels s _ ?_ h
  cases c with
  | none => exact id
  | some c => exact Table.del_wf c

theorem setPlay (c : Option Nat) (p : Playback) (h : P s) : P (s.setPlay c p) := by
  refine L.setChannels s _ ?_ h
  cases c with
  | none => exact id
  | some c => exact Table.update_wf c _

theorem changeHolds (reel : Nat) (f : Nat → Nat) (h : P s) : P (s.changeHolds reel f) := by
  refine L.setClips { s with reels := s.reels.update reel (fun r => { r with uses := f r.uses }) } _ (Table.mapAt_wf _)
    (L.setReels s _ (Table.update_wf reel _) (fun p hp => Or.inl ?_) h)
  unfold Table.update at hp
  split at hp
  · next r hr =>
    rcases Table.mem_put hp with rfl | hp
    · exact ⟨_, Table.mem_of_get hr, rfl⟩
    · exact ⟨p, hp, rfl⟩
  · exact ⟨p, hp, rfl⟩

/-! ### Records -/

theorem insertNotice (k : Nat) (old : RecordState) (r : Insertion) (cause : InsertCause) (h : P s) :
    P (s.insertNotice k old r cause) := L.raise _ h

theorem enterDone {k : Nat} {r : Insertion} (result : Result) (hr : (k, r) ∈ s.insertions) (h : P s) :
    P (s.enterDone k r result) := by
  by_cases hh : r.holds = true
  · rw [State.enterDone_of_holds hh]
    exact L.turn ((s.releaseChannel r.channel).changeHolds r.reel (fun n => n - 1)) k (r.ended result s.currentPos)
      (Or.inl ⟨r, hr, hh, rfl⟩) (L.changeHolds _ _ (L.releaseChannel _ h))
  · rw [State.enterDone_of_not_holds hh]
    exact L.putIdle (s.changeHolds r.reel (fun n => n - 1)) k (r.ended result s.currentPos)
      (Or.inr ⟨r, hr, by simpa using hh⟩) rfl (fun hne => absurd rfl hne) (L.changeHolds _ _ h)

theorem finish {k : Nat} {r : Insertion} (result : Result) (hr : (k, r) ∈ s.insertions) (h : P s) :
    P (s.finish k r result) := L.raise _ (L.enterDone result hr h)

theorem endReturn {k : Nat} {r : Insertion} (result : Result) (hr : (k, r) ∈ s.insertions) (h : P s) :
    P (s.endReturn k r result) :=
  L.finish (s := s.awaitDisc r.service) result hr (L.updateService r.service _ (fun _ => rfl) (fun _ => rfl) h)

theorem toReturning {k : Nat} {r : Insertion} (p : Playback) (cause : BreakCause) (hr : s.holdsAt k r.service) (h : P s) :
    P (s.toReturning k r p cause) :=
  L.raise _ (L.turn (s.setPlay r.channel { p with exitPending := false, clip := none }) k { r with state := .returning }
    (Or.inl hr) (L.setPlay _ _ h))

/-! ### Break and exit -/

omit L in
/-- A LOCAL record holds its service. -/
theorem holdsAt_of_local {k service : Nat} {r : Insertion} (hr : (k, r) ∈ s.insertions) (hl : r.state = .onLocal)
    (hs : r.service = service) : s.holdsAt k service :=
  ⟨r, hr, r.holds_iff.mpr (Or.inr (Or.inl hl)), hs⟩

theorem exitLocal {k : Nat} {old r : Insertion} (p : Playback) (cause : BreakCause) (hr : (k, old) ∈ s.insertions)
    (hl : old.state = .onLocal) (hstate : r.state = old.state) (hservice : r.service = old.service) (h : P s) :
    P (s.exitLocal k r p cause) := by
  unfold State.exitLocal
  split
  · exact L.toReturning p cause (holdsAt_of_local hr hl hservice.symm) h
  · exact L.putKept (s.setPlay r.channel { p with exitPending := true }) k old r hr hstate hservice (L.setPlay _ _ h)

theorem takeBreak (k : Nat) (cause : BreakCause) (result : Result) (h : P s) : P (s.takeBreak k cause result) := by
  unfold State.takeBreak
  split
  · exact h
  · next r hr =>
    split
    · next hl _ =>
      have hl : r.state = .onLocal := by
        simp only [Bool.and_eq_true, decide_eq_true_eq] at hl
        exact hl.1
      exact L.exitLocal (old := r) _ cause (Table.mem_of_get hr) hl rfl rfl h
    · exact h
    · exact h

theorem walkFrom (k step : Nat) (gC : Pos) (h : P s) : P (s.walkFrom k step gC) := by
  unfold State.walkFrom
  split
  · exact h
  · split
    · exact h
    · dsimp only
      split
      · exact L.setPlay _ _ h
      · split
        · exact L.takeBreak k _ _ (L.setPlay _ _ h)
        · exact L.setPlay _ _ h
      · split
        · exact L.takeBreak k _ _ (L.setPlay _ _ h)
        · exact L.setPlay _ _ h

theorem spliceStart {k : Nat} {r : Insertion} (gS : Pos) (hr : (k, r) ∈ s.insertions) (hp : r.state = .primed) (h : P s) :
    P (s.spliceStart k r gS) := by
  unfold State.spliceStart
  split
  · exact L.finish _ hr h
  · exact L.walkFrom k 0 gS (L.raise _ (L.turn (s.setPlay r.channel _) k
      { r with state := .onLocal, startSlot := s.currentPos } (Or.inl ⟨r, hr, r.holds_of_primed hp, rfl⟩)
      (L.setPlay _ _ h)))

/-! ### A slot boundary at the Insertion Engine -/

theorem moveOn (k : Nat) (ended : Bool) (h : P s) : P (s.moveOn k ended) := by
  unfold State.moveOn
  split
  · next r _ hr _ =>
    split
    · next hl _ =>
      split
      · split
        · exact L.toReturning _ _ (holdsAt_of_local (Table.mem_of_get hr) (by simpa using hl) rfl) h
        · exact h
      · split
        · exact L.walkFrom k _ _ h
        · exact h
    · exact h
    · exact h
  · exact h

theorem channelBoundary (k : Nat) (r : Insertion) (h : P s) : P (s.channelBoundary k r) := by
  unfold State.channelBoundary
  split
  · exact h
  · next p _ =>
    refine L.moveOn k _ ?_
    have hend : P (s.endPlay r p).1 := by
      unfold State.endPlay
      split
      · exact L.setPlay _ _ h
      · exact h
    unfold State.reachBreak
    split
    · exact L.takeBreak k _ _ hend
    · exact hend

theorem recordBoundary (k : Nat) (h : P s) : P (s.recordBoundary k) := by
  unfold State.recordBoundary
  split
  · exact h
  · next r hr =>
    split
    · next hp _ =>
      split
      · exact L.spliceStart _ (Table.mem_of_get hr) hp h
      · exact h
    · exact L.channelBoundary k r h
    · exact h

theorem insertionBoundary (h : P s) : P s.insertionBoundary := by
  unfold State.insertionBoundary
  induction List.range 16 generalizing s with
  | nil => exact h
  | cons k ks ih => exact ih (L.recordBoundary k h)

/-! ### Giving a cell -/

theorem giveCell {c : Nat} {d : DueCell} (hd : s.dueCell c = some d) (h : P s) : P (s.giveCell d) := by
  obtain ⟨hr, hl⟩ := State.dueCell_local hd
  have hput : P ((s.setPlay (some d.channel) (s.playAfter d)).putRecord d.record
      { d.insertion with localCells := bump d.insertion.localCells }) :=
    L.putKept (s.setPlay (some d.channel) (s.playAfter d)) _ d.insertion _ (Table.mem_of_get hr) rfl rfl (L.setPlay _ _ h)
  have hgiven := L.updateService d.insertion.service (fun e => { e with localCells := bump e.localCells })
    (fun _ => rfl) (fun _ => rfl) hput
  have hholds : ∀ t : State, t.insertions = s.insertions.put d.record
      { d.insertion with localCells := bump d.insertion.localCells } → t.holdsAt d.record d.insertion.service :=
    fun t ht => holdsAt_of_local (r := { d.insertion with localCells := bump d.insertion.localCells })
      (Table.mem_of_get (by rw [ht]; exact Table.get_put_same ..)) hl rfl
  have hexit : ∀ t : State, t.insertions = s.insertions.put d.record
      { d.insertion with localCells := bump d.insertion.localCells } → P t → ∀ p,
      P (t.examineExit d { d.insertion with localCells := bump d.insertion.localCells } p) := by
    intro t ht hpt p
    unfold State.examineExit
    split
    · exact L.toReturning p _ (hholds t ht) hpt
    · exact hpt
  unfold State.giveCell
  dsimp only
  split
  · exact hexit _ rfl (L.raise _ hgiven) _
  · exact hexit _ rfl hgiven _

/-! ### Cues -/

theorem repeatOut {k : Nat} {r : Insertion} (c : TimedCue) (hr : (k, r) ∈ s.insertions) (h : P s) :
    P (s.repeatOut k r c) := by
  unfold State.repeatOut
  split
  · split
    · exact h
    · exact L.putKept s k r _ hr rfl rfl h
  all_goals exact h

/-- A record that becomes PRIMED takes its service over. -/
theorem prime {k : Nat} (ch : Nat) {r : Insertion} (hp : r.state = .primed) (ht : s.mayTurn k r.service) (h : P s) :
    P (s.prime k ch r) := by
  have hturn := L.turn { s with channels := s.channels.put ch { record := k, play := none } } k r ht
    (L.setChannels s _ (Table.put_wf ch _) h)
  rw [if_pos (r.holds_of_primed hp), hp] at hturn
  exact hturn

theorem primeByCue {k : Nat} {r : Insertion} (c : TimedCue) (hr : (k, r) ∈ s.insertions) (ha : r.state = .armed)
    (hs : r.service = c.service) (h : P s) : P (s.primeByCue k r c) := by
  unfold State.primeByCue
  split
  · exact L.raise _ h
  · next hfree =>
    split
    · exact L.finish _ hr h
    · split
      · exact L.raise _ h
      · split
        · exact L.finish _ hr h
        · refine L.raise _ (L.prime _ rfl (Or.inr ⟨Or.inr ⟨r, hr, ?_⟩, Or.inr ⟨r, hr, ?_, rfl⟩, Or.inr ?_⟩) h)
          · simpa using r.not_holds_of_armed ha
          · simp [ha]
          · show s.holder r.service = none
            rw [hs]
            simpa using hfree

theorem outCue (c : TimedCue) (h : P s) : P (s.outCue c) := by
  have hun : P (match s.armedMatch c with
      | some (k, r) => s.primeByCue k r c
      | none => s) := by
    split
    · next k r hm =>
      obtain ⟨hr, hm⟩ := Table.firstSuch_some hm
      simp only [Bool.and_eq_true, decide_eq_true_eq] at hm
      exact L.primeByCue c hr hm.1.1 hm.1.2 h
    · exact h
  unfold State.outCue
  dsimp only
  split
  · next k r hh =>
    split
    · exact L.repeatOut c (State.holder_some hh).1 h
    · exact hun
  · exact hun

theorem unprime {k : Nat} {r : Insertion} (hr : (k, r) ∈ s.insertions) (hp : r.state = .primed) (h : P s) :
    P (s.unprime k r) :=
  L.raise _ (L.turn (s.releaseChannel r.channel) k
    { r with state := .armed, splice := none, breakSlot := none, matched := none, channel := none }
    (Or.inl ⟨r, hr, r.holds_of_primed hp, rfl⟩) (L.releaseChannel _ h))

theorem cancelCue (c : TimedCue) (h : P s) : P (s.cancelCue c) := by
  unfold State.cancelCue
  split
  · exact h
  · next k r hh =>
    split
    · split
      · next hp => exact L.unprime (State.holder_some hh).1 hp h
      · exact L.takeBreak k _ _ h
      all_goals exact h
    · exact h

theorem inCue (c : TimedCue) (h : P s) : P (s.inCue c) := by
  unfold State.inCue
  split
  · exact h
  · next k r hh =>
    have hput := L.putKept s k r { r with breakSlot := some c.slot } (State.holder_some hh).1 rfl rfl h
    split
    · dsimp only
      split
      · exact L.takeBreak k _ _ hput
      · exact hput
    · exact h

theorem handleCue (service : Nat) (arrival : Option Nat) (p : CuePayload) (h : P s) :
    P (s.handleCue service arrival p) := by
  unfold State.handleCue
  split
  · exact L.raise _ h
  · split
    · exact L.raise _ h
    · split
      · exact L.raise _ h
      · split
        · unfold State.actOnCue
          dsimp only
          split
          · exact L.outCue _ h
          · exact L.inCue _ h
          · exact L.cancelCue _ h
        · exact L.raise _ h

theorem takeCue (h : P s) : P s.takeCue := by
  unfold State.takeCue
  split
  · exact h
  · dsimp only
    split
    · exact L.handleCue _ _ _ (L.same h rfl)
    · exact L.same h rfl

theorem expireReturn (k : Nat) (h : P s) : P (s.expireReturn k) := by
  unfold State.expireReturn
  split
  · next r hr =>
    split
    · exact L.endReturn _ (Table.mem_of_get hr) h
    · exact h
  · exact h

end Law
end Sys2Proof.Machine
namespace Sys2Proof.Machine
namespace Law

variable {P : State → Prop} {W : Bytes → Prop} (L : Law P W) {s : State}

include L

/-! ### The Assembler -/

theorem takeRing (g : Nat) (h : P s) : P (s.takeRing g).1 := by
  unfold State.takeRing
  split
  · exact h
  · have hdel : P { s with ring := s.ring.del (g % Config.ringSize) } :=
      L.setRing s _ (Table.del_wf _) (fun p hp => Or.inl (Table.mem_del hp)) h
    dsimp only
    split
    · exact hdel
    · exact L.setStreams { s with ring := s.ring.del (g % Config.ringSize) } _ (countStream_wf _ _ _ _ _) hdel

theorem updateAnchor (k g : Nat) (cell : Bytes) (h : P s) : P (s.updateAnchor k g cell) := by
  refine L.updateService k _ (fun e => ?_) (fun e => ?_) h <;> (split <;> rfl)

theorem passOn (k : Nat) (cell : Bytes) (h : P s) : P (s.passOn k cell).1 := by
  unfold State.passOn
  split
  · exact L.updateService k _ (fun _ => rfl) (fun _ => rfl) h
  · exact h

theorem countNull (k record : Nat) (h : P s) : P (s.countNull k record) := by
  have hs := L.updateService k (fun e => { e with nulls := bump e.nulls }) (fun _ => rfl) (fun _ => rfl) h
  refine L.setInsertions _ _ (Table.update_wf record _) (fun j => ?_) hs
  by_cases hj : j = record
  · subst hj
    rw [Table.get_update_same, Option.map_map]
    rfl
  · rw [Table.get_update_other _ _ hj]

theorem countReplaced (k : Nat) (h : P s) : P (s.countReplaced k) :=
  L.updateService k _ (fun _ => rfl) (fun _ => rfl) h

theorem vacated (k record : Nat) (channel : Option Nat) (h : P s) : P (s.vacated k record channel).1 := by
  unfold State.vacated
  split
  · next d hd =>
    obtain ⟨c, _, hd⟩ := Option.bind_eq_some_iff.mp hd
    exact L.giveCell hd h
  · exact L.countNull k record h

theorem returningCell {k record : Nat} {r : Insertion} (cell : Bytes) (hr : (record, r) ∈ s.insertions) (h : P s) :
    P (s.returningCell k record r cell).1 := by
  unfold State.returningCell
  dsimp only
  split
  · exact L.passOn _ _ (L.endReturn _ hr h)
  · exact L.countNull _ _ (L.countReplaced k h)

theorem serviceCell (k : Nat) (cell : Bytes) (h : P s) : P (s.serviceCell k cell).1 := by
  unfold State.serviceCell
  split
  · exact L.vacated _ _ _ (L.countReplaced k h)
  · next hh => exact L.returningCell cell (State.holder_some hh).1 h
  all_goals exact L.passOn k cell h

theorem networkCell (g : Nat) (e : RingEntry) (h : P s) : P (s.networkCell g e).1 := by
  unfold State.networkCell
  split
  · exact L.serviceCell _ _ (L.updateAnchor _ _ _ h)
  all_goals exact h

theorem siteCell (h : P s) : P s.siteCell.1 := by
  unfold State.siteCell
  split
  · exact L.same h rfl
  · exact h

theorem spareCell (h : P s) : P s.spareCell.1 := by
  unfold State.spareCell
  split
  · next d hd =>
    obtain ⟨c, _, hd⟩ := List.exists_of_findSome?_eq_some hd
    exact L.same (L.giveCell hd h) rfl
  · exact L.siteCell h

theorem planCell (h : P s) : P s.planCell.1 := by
  unfold State.planCell
  dsimp only
  split
  · exact h
  · exact L.siteCell h
  · exact L.spareCell h

theorem formCell (h : P s) : P s.formCell.1 := by
  unfold State.formCell
  split
  · exact L.planCell h
  · next g _ =>
    have hring := L.takeRing g h
    split
    · next hg => exact L.networkCell g _ (by rwa [hg] at hring)
    · next hg => exact L.planCell (by rwa [hg] at hring)

theorem recordEmitted (cell : Bytes) (h : P s) : P (s.recordEmitted cell) :=
  L.mapServices _ (fun _ => rfl) (fun _ => rfl) h

theorem present (cell : Bytes) (h : P s) : P (s.present cell) := by
  unfold State.present
  split
  · exact L.same h rfl
  · exact h

theorem takeSlotBoundary (h : P s) : P s.takeSlotBoundary := by
  have hbegun : P s.beginSlot := L.same h rfl
  exact L.assertPermit _ (L.present _ (L.recordEmitted _ (L.formCell (L.insertionBoundary hbegun))))

theorem takeDueSlot (h : P s) : P s.takeDueSlot := by
  unfold State.takeDueSlot
  split
  · exact L.takeSlotBoundary (L.holdBack s _ h (L.takeSecondBoundary (L.setNotices s [] (by simp) h)))
  · exact L.takeSlotBoundary h

theorem outputTick (h : P s) : P s.outputTick := by
  unfold State.outputTick
  split
  · exact L.same h rfl
  · split
    · exact L.same h rfl
    · exact L.same h rfl

theorem countTick (h : P s) : P s.countTick := by
  unfold State.countTick
  split
  · exact L.same (L.setSecondDue s true (Or.inl rfl) h) rfl
  · next hlt => exact L.same (L.setTick s (s.time.tick + 1) (not_le.mp hlt) h) rfl

theorem tick (h : P s) : P s.tick := by
  refine L.countTick (L.outputTick ?_)
  refine L.same (L.setInsertions s (s.insertions.mapAll (fun r => { r with timer := timerTick r.timer }))
    (Table.mapAll_wf _) (fun k => ?_) h) rfl
  rw [Table.get_mapAll, Option.map_map]
  rfl

/-! ### The Control Link -/

theorem discardFrame (f : DiscardCounts → DiscardCounts) (h : P s) : P (s.discardFrame f) := L.same h rfl

theorem receiveByte (b : Byte) (h : P s) : P (s.receiveByte b) := by
  unfold State.receiveByte
  split
  · exact L.same h rfl
  · split
    · exact L.same h rfl
    · exact L.same h rfl
  · unfold State.headerByte
    dsimp only
    split
    · exact L.same h rfl
    · split
      · exact L.same h rfl
      · exact L.same h rfl
  · dsimp only
    split
    · exact L.same h rfl
    · exact L.same h rfl
  · exact L.same h rfl
  · unfold State.checkFrame State.takeFrame
    split
    · split
      · exact L.same h rfl
      · exact L.same h rfl
    · exact L.same h rfl
  · exact h

theorem shiftOutByte (h : P s) : P s.shiftOutByte := by
  unfold State.shiftOutByte
  split
  · exact L.same h rfl
  · exact L.same h rfl
  · exact L.same h rfl

theorem byteOutFirst (b : Byte) (h : P s) : P (s.byteOutFirst b) := L.receiveByte b (L.shiftOutByte h)

theorem byteInFirst (b : Byte) (h : P s) : P (s.byteInFirst b) := L.shiftOutByte (L.receiveByte b h)

theorem linkByte (b : Byte) (h : P s) : P (s.linkByte b) := by
  unfold State.linkByte
  split
  · dsimp only
    split
    · exact L.byteOutFirst b (L.same h rfl)
    · exact L.byteInFirst b (L.same h rfl)
  · exact L.byteOutFirst b h

theorem endTransfer (h : P s) : P s.endTransfer := by
  unfold State.endTransfer
  dsimp only
  split
  · exact L.same h rfl
  · exact L.same h rfl

theorem readyReply (kind tag : BitVec 16) (code : ResultCode) (fields : Bytes) (h : P s) :
    P (s.readyReply kind tag code fields) := L.same h rfl

theorem makeReady (h : P s) : P s.makeReady := by
  unfold State.makeReady
  split
  · exact L.same h rfl
  all_goals exact h

/-- A request keeps a law that its block's answer to a well-formed request keeps. -/
theorem request (i : Instr) (kind tag : BitVec 16) (handle : State → Answer)
    (hok : ∀ t f, i.wellFormed = true → handle s = .ok t f → P t) (h : P s) : P (s.request i kind tag handle) := by
  unfold State.request
  split
  · split
    · next hw =>
      cases ha : handle s with
      | ok t f => exact L.same (hok t f hw ha) rfl
      | refuse code => exact L.same h rfl
    · exact L.same h rfl
  · exact L.same h rfl

/-- A reading request changes nothing. -/
theorem requestRead (i : Instr) (kind tag : BitVec 16) (handle : State → Answer)
    (hread : ∀ t f, handle s = .ok t f → t = s) (h : P s) : P (s.request i kind tag handle) :=
  L.request i kind tag handle (fun t f _ ht => (hread t f ht).symm ▸ h) h

theorem requestReady (i : Instr) (kind tag : BitVec 16) (handle : State → State × Bytes) (hok : P (handle s).1)
    (h : P s) : P (s.requestReady i kind tag handle) := by
  unfold State.requestReady
  split
  · exact L.same hok rfl
  · exact L.same h rfl

end Law
end Sys2Proof.Machine
namespace Sys2Proof.Machine
namespace Law

variable {P : State → Prop} {W : Bytes → Prop} (L : Law P W) {s t : State} {f : Bytes}

include L

/-! ### What the blocks' answers to requests keep -/

omit L in
theorem ite_wf {α : Type} (c : Prop) [Decidable c] {t u : Table α} (ht : t.wf = true) (hu : u.wf = true) :
    Table.wf (if c then t else u) = true := by
  split
  · exact ht
  · exact hu

theorem originSet {index valid links : Byte} {originId : BitVec 32}
    (hok : handleOriginSet index valid originId links s = .ok t f) (h : P s) : P t := by
  unfold handleOriginSet at hok
  dsimp only at hok
  split at hok
  · split at hok
    · cases hok
    · cases hok
      refine L.setStreams { s with origins := s.origins.put _ _ } _ (fun hw => ?_)
        (L.setOrigins s _ (Table.put_wf _ _) h)
      exact ite_wf _ (Table.mapAll_wf _ hw) hw
  · split at hok
    · cases hok
    · cases hok
      exact L.setOrigins s _ (Table.del_wf _) h
  · cases hok

theorem streamSet {b : StreamSetBody} (hok : handleStreamSet b s = .ok t f) (h : P s) : P t := by
  unfold handleStreamSet at hok
  split at hok
  · cases hok
  · iterate 5 (split at hok; · cases hok)
    cases hok
    exact L.putStream _ _ h

theorem streamClear {index : Nat} (hok : handleStreamClear index s = .ok t f) (h : P s) : P t := by
  unfold handleStreamClear at hok
  iterate 2 (split at hok; · cases hok)
  cases hok
  exact L.setStreams s _ (Table.del_wf _) h

/-- A service written while it is in NETWORK keeps its splice state and active insertion. -/
theorem serviceWrite {k number : Nat} {labels : List Nat} (hok : handleServiceWrite k number labels s = .ok t f)
    (h : P s) : P t := by
  have hput : P { s with services := s.services.put k (.rewritten (s.services.get k) number labels) } := by
    refine L.setServices s _ (Table.put_wf _ _) (fun j => ?_) h
    by_cases hj : j = k
    · subst hj
      cases hold : s.services.get j <;>
        simp [State.spliceOf, State.activeOf, hold, ServiceEntry.rewritten, ServiceEntry.fresh]
    · simp [State.spliceOf, State.activeOf, Table.get_put_other _ _ hj]
  unfold handleServiceWrite at hok
  dsimp only at hok
  iterate 3 (split at hok; · cases hok)
  generalize (Bool.and _ _) = inUse at hok
  cases inUse <;> cases hok
  exact hput

theorem serviceClear {k : Nat} (hok : handleServiceClear k s = .ok t f) (h : P s) : P t := by
  unfold handleServiceClear at hok
  split at hok
  · cases hok
  · next hfree =>
    cases hok
    refine L.delService s k (fun j r hr hd => ?_) h
    simp only [Bool.or_eq_true, not_or, Bool.not_eq_true] at hfree
    simpa [hd] using Table.someSuch_eq_false_iff.mp hfree.2 j r hr

theorem serviceSet {b : ServiceSetBody} (hok : handleServiceSet b s = .ok t f) (h : P s) : P t := by
  unfold handleServiceSet at hok
  split at hok
  · split at hok
    · exact L.serviceWrite hok h
    · cases hok
  · exact L.serviceClear hok h
  · cases hok

omit L in
theorem write_wf {b : PlanBank} (k : Nat) (e : PlanEntry) (h : b.entries.wf = true) : (b.write k e).entries.wf = true := by
  unfold PlanBank.write
  split
  · exact Table.del_wf k h
  · exact Table.put_wf k _ h
  · exact Table.put_wf k _ h

omit L in
theorem writeRun_wf {b : PlanBank} (k : Nat) (es : List PlanEntry) (h : b.entries.wf = true) :
    (b.writeRun k es).entries.wf = true := by
  induction es generalizing b k with
  | nil => exact h
  | cons e es ih => exact ih (k + 1) (write_wf k e h)

theorem planWrite {b : PlanWriteBody} (hok : handlePlanWrite b s = .ok t f) (h : P s) : P t := by
  unfold handlePlanWrite at hok
  split at hok
  · cases hok
  · next bank entries length _ =>
    iterate 2 (split at hok; · cases hok)
    cases hok
    refine L.setAssembler s _ (fun h0 h1 => ?_) (fun c hc => Or.inl ?_) h
    · cases bank
      · exact ⟨writeRun_wf _ _ h0, h1⟩
      · exact ⟨h0, writeRun_wf _ _ h1⟩
    · cases bank <;> exact hc

theorem planSwap {second : Epoch} (hok : handlePlanSwap second s = .ok t f) (h : P s) : P t := by
  unfold handlePlanSwap at hok
  dsimp only at hok
  iterate 4 (split at hok; · cases hok)
  cases hok
  exact L.same h rfl

theorem planCancel (hok : handlePlanCancel s = .ok t f) (h : P s) : P t := by
  cases hok
  exact L.same h rfl

theorem sitecellSet {tag : BitVec 16} {cells : List Bytes} (hw : (Instr.sitecellSet tag cells).wellFormed = true)
    (hok : handleSitecellSet cells s = .ok t f) (h : P s) : P t := by
  cases hok
  refine L.setAssembler s _ (fun h0 h1 => ⟨h0, h1⟩) (fun c hc => Or.inr ?_) h
  simp only [Instr.wellFormed, Bool.and_eq_true, List.all_eq_true, beq_iff_eq] at hw
  exact hw.2 c hc

theorem timeSet {second : Epoch} (hok : handleTimeSet second s = .ok t f) (h : P s) : P t := by
  unfold handleTimeSet at hok
  split at hok
  · cases hok
  · cases hok
    exact L.same h rfl

theorem timeClear {choice : Byte} (hok : handleTimeClear choice s = .ok t f) (h : P s) : P t := by
  unfold handleTimeClear at hok
  split at hok
  · cases hok
  · next counts _ =>
    cases hok
    cases counts <;> exact L.same h rfl

theorem clipDefine {b : ClipDefineBody} (hok : handleClipDefine b s = .ok t f) (h : P s) : P t := by
  unfold handleClipDefine at hok
  split at hok
  · cases hok
  · iterate 2 (split at hok; · cases hok)
    cases hok
    exact L.setClips s _ (Table.put_wf _ _) h

omit L in
/-- What a run of puts lists: the values put and old entries. -/
theorem mem_putRun {α : Type} {t : Table α} {k : Nat} {vs : List α} {p : Nat × α} (h : p ∈ t.putRun k vs) :
    p ∈ t ∨ p.2 ∈ vs := by
  induction vs generalizing t k with
  | nil => exact Or.inl h
  | cons v vs ih =>
    rcases ih h with h | h
    · rcases Table.mem_put h with rfl | h
      · exact Or.inr (List.mem_cons_self ..)
      · exact Or.inl h
    · exact Or.inr (List.mem_cons_of_mem _ h)

omit L in
/-- Records read from well-formed bodies hold whole payloads. -/
theorem readRecords_whole {bodies : List RecordBody} {records : List ClipRecord}
    (hw : ∀ b ∈ bodies, b.payload.length = 180) (h : readAll readRecord bodies = some records) :
    ∀ r ∈ records, r.payload.length = 180 := by
  induction bodies generalizing records with
  | nil => cases h; simp
  | cons b bodies ih =>
    simp only [readAll] at h
    split at h
    · next r rs hb hbs =>
      cases h
      rw [readRecord_eq] at hb
      split at hb
      · cases hb
        exact List.forall_mem_cons.mpr ⟨hw b (List.mem_cons_self ..), ih (fun x hx => hw x (List.mem_cons_of_mem _ hx)) hbs⟩
      · cases hb
    · cases h

theorem clipWrite {tag : BitVec 16} {clip : Byte} {first : BitVec 32} {bodies : List RecordBody}
    (hw : (Instr.clipWrite tag clip first bodies).wellFormed = true)
    (hok : handleClipWrite clip.toNat first.toNat bodies s = .ok t f) (h : P s) : P t := by
  simp only [Instr.wellFormed, RecordBody.wellFormed, Bool.and_eq_true, List.all_eq_true, beq_iff_eq] at hw
  unfold handleClipWrite at hok
  split at hok
  · cases hok
  · next records hread =>
    split at hok
    · cases hok
    · split at hok
      · cases hok
      · iterate 4 (split at hok; · cases hok)
        cases hok
        refine L.setClips { s with clipCells := s.clipCells.putRun _ records } _ (Table.put_wf _ _)
          (L.setClipCells s _ (Table.putRun_wf _ _) (fun p hp => ?_) h)
        exact (mem_putRun hp).imp_right (readRecords_whole hw.2 hread p.2)

theorem clipClose {clip : Nat} (hok : handleClipClose clip s = .ok t f) (h : P s) : P t := by
  unfold handleClipClose at hok
  split at hok
  · cases hok
  · iterate 2 (split at hok; · cases hok)
    cases hok
    exact L.setClips s _ (Table.put_wf _ _) h

theorem clipDelete {clip : Nat} (hok : handleClipDelete clip s = .ok t f) (h : P s) : P t := by
  unfold handleClipDelete at hok
  split at hok
  · cases hok
  · cases hok
    exact L.setClips s _ (Table.del_wf _) h

theorem reelSet {reel : Nat} {bodies : List StepBody} (hok : handleReelSet reel bodies s = .ok t f) (h : P s) : P t := by
  unfold handleReelSet at hok
  split at hok
  · next k steps _ _ =>
    split at hok
    · cases hok
    · next hlen =>
      split at hok
      · cases hok
      · next hbal =>
        split at hok
        · cases hok
        · next hdepth =>
          split at hok
          · cases hok
          · next hfilled =>
            split at hok
            · cases hok
            · split at hok
              · cases hok
                exact L.setReels s _ (Table.del_wf _) (fun p hp => Or.inl ⟨p, Table.mem_del hp, rfl⟩) h
              · next hne =>
                cases hok
                simp only [Bool.not_eq_false] at hbal hdepth hfilled
                have hbalanced := (balanced_iff steps).mp hbal
                refine L.setReels s _ (Table.put_wf _ _) (fun p hp => ?_) h
                rcases Table.mem_put hp with rfl | hp
                · exact Or.inr ⟨by simpa using hne, not_lt.mp hlen, hbalanced, (depthFits_iff hbalanced).mp hdepth,
                    (bodiesFilled_iff hbalanced).mp hfilled⟩
                · exact Or.inl ⟨p, hp, rfl⟩
  · cases hok

/-- INSERT.ARM writes a record where none is active: ARMED, or PRIMED on a free service. -/
theorem insertArm {b : InsertArmBody} (hok : handleInsertArm b s = .ok t f) (h : P s) : P t := by
  unfold handleInsertArm at hok
  split at hok
  · cases hok
  · next q _ =>
    dsimp only at hok
    have hdone : ∀ r, s.insertions.get q.record = some r → r.state = .done := by
      intro r hr
      by_contra hne
      simp [hr, hne] at hok
    have hidle : s.idleAt q.record := by
      cases hr : s.insertions.get q.record with
      | none => exact Or.inl hr
      | some r => exact Or.inr ⟨r, Table.mem_of_get hr, by simp [Insertion.holds, hdone r hr]⟩
    rw [if_neg] at hok
    · split at hok
      · cases hok
      · next service hservice =>
        have hvalid : (s.services.get q.service).isSome = true := by simp [hservice]
        iterate 2 (split at hok; · cases hok)
        split at hok
        · cases hok
          exact L.putIdle (s.changeHolds q.reel (· + 1)) q.record q.armed hidle rfl (fun _ => Or.inl hvalid)
            (L.changeHolds _ _ h)
        · unfold handleArmAt at hok
          dsimp only at hok
          iterate 3 (split at hok; · cases hok)
          split at hok
          · cases hok
          · next hnet =>
            split at hok
            · cases hok
            · cases hok
              exact L.prime _ rfl (Or.inr ⟨hidle, Or.inl hvalid, Or.inl (not_not.mp hnet)⟩) (L.changeHolds _ _ h)
    · cases hr : s.insertions.get q.record with
      | none => simp
      | some r => simp [hdone r hr]

theorem insertCancel {k : Nat} (hok : handleInsertCancel k s = .ok t f) (h : P s) : P t := by
  unfold handleInsertCancel at hok
  split at hok
  · cases hok
  · split at hok
    · cases hok
    · next r hr =>
      split at hok
      · cases hok
        exact L.enterDone _ (Table.mem_of_get hr) h
      · cases hok

theorem insertReturn {k : Nat} (hok : handleInsertReturn k s = .ok t f) (h : P s) : P t := by
  unfold handleInsertReturn at hok
  split at hok
  · cases hok
  · split at hok
    · cases hok
    · split at hok
      · cases hok
        exact L.takeBreak k _ _ h
      · cases hok

theorem insertClear {k : Nat} (hok : handleInsertClear k s = .ok t f) (h : P s) : P t := by
  unfold handleInsertClear at hok
  split at hok
  · cases hok
  · split at hok
    · cases hok
    · next r hr =>
      split at hok
      · next hd =>
        cases hok
        exact L.delDone s k r hr hd h
      · cases hok

theorem noticeFetch (h : P s) : P (handleNoticeFetch s).1 :=
  L.same (L.setNotices s (s.control.notices.drop 8) (by simp only [List.length_drop]; omega) h) rfl

theorem countsRead {scope clear : Byte} {index : Nat} (hok : handleCountsRead scope index clear s = .ok t f) (h : P s) :
    P t := by
  unfold handleCountsRead at hok
  split at hok
  · cases hok
  · next c _ =>
    have hlink : ∀ l, readLinkCounts l c s = .ok t f → P t := by
      intro l hl
      cases hl
      cases c
      · exact h
      · exact L.setLinkKept l _ id rfl rfl h
    split at hok
    · exact hlink .a hok
    · split at hok
      · exact hlink .b hok
      · split at hok
        · cases hok
          cases c
          · exact h
          · exact L.setStreams s _ (Table.update_wf _ _) h
        · split at hok
          · cases hok
            cases c
            · exact h
            · exact L.updateService index _ (fun _ => rfl) (fun _ => rfl) h
          · cases hok

end Law

/-! ### Reading requests change nothing -/

section

variable {s t : State} {f : Bytes}

theorem handleOriginRead_same {k : Nat} (h : handleOriginRead k s = .ok t f) : t = s := by
  unfold handleOriginRead at h
  split at h <;> cases h
  rfl

theorem handleStreamRead_same {k : Nat} (h : handleStreamRead k s = .ok t f) : t = s := by
  unfold handleStreamRead at h
  split at h <;> cases h
  rfl

theorem handleServiceRead_same {k : Nat} (h : handleServiceRead k s = .ok t f) : t = s := by
  unfold handleServiceRead at h
  split at h <;> cases h
  rfl

theorem handlePlanRead_same {bank : Byte} {first count : Nat} (h : handlePlanRead bank first count s = .ok t f) :
    t = s := by
  unfold handlePlanRead at h
  split at h
  · cases h
  · split at h <;> cases h
    rfl

theorem handleReelRead_same {k : Nat} (h : handleReelRead k s = .ok t f) : t = s := by
  unfold handleReelRead at h
  split at h <;> cases h
  rfl

theorem handleInsertRead_same {k : Nat} (h : handleInsertRead k s = .ok t f) : t = s := by
  unfold handleInsertRead at h
  split at h <;> cases h
  rfl

end

end Sys2Proof.Machine
namespace Sys2Proof.Machine

/-! ## Laws that do not read the permit line -/

namespace LooseLaw

variable {P : State → Prop} {W : Bytes → Prop} (L : LooseLaw P W) {s : State}

include L

theorem keepRing {streams : Table StreamEntry} (p : Nat → RingEntry → Bool)
    (hw : s.streams.wf = true → streams.wf = true) (h : P s) :
    P { s with streams := streams, ring := s.ring.keep p } :=
  L.setRing { s with streams := streams } _ (Table.keep_wf p) (fun _ hx => Or.inl (List.mem_of_mem_filter hx))
    (L.setStreams s streams hw h)

theorem skipSlots (c : Nat) (h : P s) : P (s.skipSlots c) := by
  have hcount : ∀ (entries : Table RingEntry) (streams : Table StreamEntry), streams.wf = true →
      (countLateEntries entries streams).wf = true := by
    intro entries
    unfold countLateEntries
    induction entries with
    | nil => exact fun _ => id
    | cons p entries ih => exact fun _ hw => ih _ (Law.countStream_wf _ _ _ _ _ hw)
  unfold State.skipSlots
  split
  · exact L.keepRing _ (hcount _ _) h
  · exact h

theorem phaseStep (old : StepState) (c : Nat) (e : Int) (h : P s) : P (s.phaseStep old c e) := by
  have hstep : P { (s.raiseTime (.step old .acquire .phaseStep e)) with
      time := { s.time with
        stepState := .acquire, holdover := none, qualifyCount := 0, phaseCount := bump s.time.phaseCount } } :=
    L.same (L.setTimeFree _ s.time.config .acquire (L.raiseTime (.step old .acquire .phaseStep e) h)) rfl
  unfold State.phaseStep
  dsimp only
  refine L.dropPermit _ (L.invalidateAnchors ?_)
  split
  · exact L.takeSecondBoundary (L.skipSlots c hstep)
  · exact L.same (L.newSecond hstep) rfl

theorem linkExpire (l : Link) (h : P s) : P (s.linkExpire l) :=
  L.dropPermit _ (L.feedNotice _ _ (L.raise _ (L.linkDown s l h)))

theorem disableSource (h : P s) : P s.disableSource := by
  unfold State.disableSource
  dsimp only
  split
  · exact L.same h rfl
  · exact L.enterStep _ _ (L.same h rfl)

theorem timeConfig {t : State} {b : TimeConfigBody} {f : Bytes} (hok : handleTimeConfig b s = .ok t f) (h : P s) :
    P t := by
  unfold handleTimeConfig at hok
  split at hok
  · cases hok
  · next new _ =>
    have hnew : P { s with time := { s.time with config := new } } := L.setTimeFree s new s.time.stepState h
    dsimp only at hok
    split at hok
    · cases hok
    · cases hok
      refine L.dropPermit _ ?_
      split
      · exact L.disableSource hnew
      · exact hnew

theorem changePeriod (h : P s) : P s.changePeriod :=
  L.invalidateAnchors (L.same (L.setRing s [] (fun _ => rfl) (fun _ hp => nomatch hp) h) rfl)

theorem changeOutput (h : P s) : P s.changeOutput := by
  unfold State.changeOutput
  split
  · exact h
  · split
    · exact L.same h rfl
    · exact L.same h rfl

theorem applySite (new : SiteConfig) (hp : new.period ∈ Config.slotPeriods) (h : P s) : P (s.applySite new) := by
  have hsite := L.setSite s new hp h
  unfold State.applySite
  dsimp only
  refine L.dropPermit _ ?_
  have hperiod : P (if new.period ≠ s.site.period then ({ s with site := new } : State).changePeriod
      else { s with site := new }) := by
    split
    · exact L.changePeriod hsite
    · exact hsite
  split
  · exact L.changeOutput (L.same hperiod rfl)
  · exact L.same hperiod rfl

theorem toStepLaw : StepLaw P W :=
  { L.toLaw with
    phaseStep := fun _ old c e => L.phaseStep old c e
    linkExpire := fun _ l => L.linkExpire l
    timeConfig := fun _ _ _ _ hok => L.timeConfig hok
    applySite := fun _ new hp => L.applySite new hp }

end LooseLaw

/-! ## Every command keeps a law -/

namespace StepLaw

variable {P : State → Prop} {W : Bytes → Prop} (L : StepLaw P W) {s t : State}

/-- What a change made under a condition keeps. -/
theorem keep_ite {c : Prop} [Decidable c] {u v : State} (hu : P u) (hv : P v) : P (if c then u else v) := by
  split
  · exact hu
  · exact hv

include L

theorem edgeInAcquire (c : Nat) (e : Int) (h : P s) : P (s.edgeInAcquire c e) := by
  have hloop := L.loopUpdate e h
  unfold State.edgeInAcquire
  generalize s.loopUpdate e = u at hloop ⊢
  split
  · dsimp only
    split
    · exact keep_ite (L.enterStep _ _ (L.same hloop rfl)) (L.same hloop rfl)
    · exact keep_ite (L.enterStep _ _ (L.same hloop rfl)) (L.same hloop rfl)
  · exact L.phaseStep s _ c e h

theorem edgeInStep (c : Nat) (e : Int) (h : P s) : P (s.edgeInStep c e) := by
  unfold State.edgeInStep
  split
  · exact L.wander e (L.loopUpdate e h)
  · exact L.phaseStep s _ c e h

theorem edgeInHoldover (c : Nat) (e : Int) (h : P s) : P (s.edgeInHoldover c e) := by
  unfold State.edgeInHoldover
  split
  · exact L.edgeInStep c e (L.enterStep _ _ (L.same h rfl))
  · exact L.phaseStep s _ c e h

theorem qualifiedEdge (c : Nat) (e : Int) (h : P s) : P (s.qualifiedEdge c e) := by
  unfold State.qualifiedEdge
  split
  · exact L.edgeInAcquire c e (L.enterStep _ _ (L.same h rfl))
  · exact L.edgeInAcquire c e h
  · exact L.edgeInStep c e h
  · exact L.edgeInHoldover c e h

theorem captureEdge (h : P s) : P s.captureEdge := by
  unfold State.captureEdge
  dsimp only
  split
  · exact L.newReference _ _ _ h
  · split
    · exact L.same h rfl
    · split
      · exact L.qualifiedEdge _ _ (L.newReference _ _ _ h)
      · exact L.same h rfl

theorem siteConfig {b : SiteConfigBody} {f : Bytes} (hok : handleSiteConfig b s = .ok t f) (h : P s) : P t := by
  unfold handleSiteConfig at hok
  split at hok
  · cases hok
  · next new hread =>
    split at hok
    · cases hok
    · cases hok
      refine L.applySite s new ?_ h
      rw [readSiteConfig_eq] at hread
      split at hread
      · next hin =>
        cases hread
        exact hin.2.1
      · cases hread

/-- Every command keeps the law. -/
theorem exec (i : Instr) (h : P s) : ∃ t, exec i s = .next t ∧ P t := by
  cases i with
  | powerOnReset => exact ⟨_, rfl, L.powerOn s h⟩
  | secondBoundary => exact ⟨_, rfl, keep_ite (L.takeDueSecond h) h⟩
  | holdoverExpired => exact ⟨_, rfl, keep_ite (L.takeSecondBoundary h) h⟩
  | ppsEdge edge => exact ⟨_, rfl, keep_ite (L.captureEdge h) h⟩
  | referenceLost => exact ⟨_, rfl, keep_ite (L.loseReference (L.same h rfl)) h⟩
  | cellArrival link byte => exact ⟨_, rfl, keep_ite (L.takeData link byte h) h⟩
  | runt link byte => exact ⟨_, rfl, keep_ite (L.takeStart link byte h) h⟩
  | overlong link byte => exact ⟨_, rfl, keep_ite (L.takeData link byte h) h⟩
  | linkTimeout link => exact ⟨_, rfl, keep_ite (L.linkExpire s link h) h⟩
  | cellTake link => exact ⟨_, rfl, L.takeCell link h⟩
  | releaseComputation => exact ⟨_, rfl, L.takeRelease h⟩
  | timingCell => exact ⟨_, rfl, L.takeTiming h⟩
  | cueTake => exact ⟨_, rfl, L.takeCue h⟩
  | slotBoundary => exact ⟨_, rfl, keep_ite (L.takeDueSlot h) h⟩
  | returnLimitExpiry record => exact ⟨_, rfl, L.expireReturn record h⟩
  | transferStart => exact ⟨_, rfl, keep_ite h (L.same h rfl)⟩
  | transferEnd => exact ⟨_, rfl, keep_ite (L.endTransfer h) h⟩
  | syncError byte => exact ⟨_, rfl, keep_ite (L.byteOutFirst byte h) h⟩
  | lengthError byte => exact ⟨_, rfl, keep_ite (L.byteOutFirst byte h) h⟩
  | completeFrame byte => exact ⟨_, rfl, keep_ite (L.byteInFirst byte h) h⟩
  | replyMadeReady => exact ⟨_, rfl, L.makeReady h⟩
  | replyRead byte => exact ⟨_, rfl, keep_ite (L.byteOutFirst byte h) h⟩
  | timeConfig tag body =>
    exact ⟨_, rfl, L.request _ _ _ _ (fun t f _ hok => L.timeConfig s t body f hok h) h⟩
  | timeSet tag second => exact ⟨_, rfl, L.request _ _ _ _ (fun _ _ _ hok => L.timeSet hok h) h⟩
  | timeRead tag => exact ⟨_, rfl, L.requestRead _ _ _ _ (fun _ _ hok => by cases hok; rfl) h⟩
  | timeClear tag choice => exact ⟨_, rfl, L.request _ _ _ _ (fun _ _ _ hok => L.timeClear hok h) h⟩
  | originSet tag index valid originId links =>
    exact ⟨_, rfl, L.request _ _ _ _ (fun _ _ _ hok => L.originSet hok h) h⟩
  | originRead tag index => exact ⟨_, rfl, L.requestRead _ _ _ _ (fun _ _ => handleOriginRead_same) h⟩
  | streamSet tag body => exact ⟨_, rfl, L.request _ _ _ _ (fun _ _ _ hok => L.streamSet hok h) h⟩
  | streamClear tag index => exact ⟨_, rfl, L.request _ _ _ _ (fun _ _ _ hok => L.streamClear hok h) h⟩
  | streamRead tag index => exact ⟨_, rfl, L.requestRead _ _ _ _ (fun _ _ => handleStreamRead_same) h⟩
  | serviceSet tag body => exact ⟨_, rfl, L.request _ _ _ _ (fun _ _ _ hok => L.serviceSet hok h) h⟩
  | serviceRead tag index => exact ⟨_, rfl, L.requestRead _ _ _ _ (fun _ _ => handleServiceRead_same) h⟩
  | releaseRead tag => exact ⟨_, rfl, L.requestRead _ _ _ _ (fun _ _ hok => by cases hok; rfl) h⟩
  | siteConfig tag body => exact ⟨_, rfl, L.request _ _ _ _ (fun _ _ _ hok => L.siteConfig hok h) h⟩
  | siteRead tag => exact ⟨_, rfl, L.requestRead _ _ _ _ (fun _ _ hok => by cases hok; rfl) h⟩
  | planWrite tag body => exact ⟨_, rfl, L.request _ _ _ _ (fun _ _ _ hok => L.planWrite hok h) h⟩
  | planSwapRequest tag second => exact ⟨_, rfl, L.request _ _ _ _ (fun _ _ _ hok => L.planSwap hok h) h⟩
  | planCancel tag => exact ⟨_, rfl, L.request _ _ _ _ (fun _ _ _ hok => L.planCancel hok h) h⟩
  | planRead tag bank first count => exact ⟨_, rfl, L.requestRead _ _ _ _ (fun _ _ => handlePlanRead_same) h⟩
  | sitecellSet tag cells => exact ⟨_, rfl, L.request _ _ _ _ (fun _ _ hw hok => L.sitecellSet hw hok h) h⟩
  | sitecellRead tag => exact ⟨_, rfl, L.requestRead _ _ _ _ (fun _ _ hok => by cases hok; rfl) h⟩
  | clipDefine tag body => exact ⟨_, rfl, L.request _ _ _ _ (fun _ _ _ hok => L.clipDefine hok h) h⟩
  | clipWrite tag clip first records =>
    exact ⟨_, rfl, L.request _ _ _ _ (fun _ _ hw hok => L.clipWrite hw hok h) h⟩
  | clipClose tag clip => exact ⟨_, rfl, L.request _ _ _ _ (fun _ _ _ hok => L.clipClose hok h) h⟩
  | clipDelete tag clip => exact ⟨_, rfl, L.request _ _ _ _ (fun _ _ _ hok => L.clipDelete hok h) h⟩
  | clipRead tag clip => exact ⟨_, rfl, L.requestRead _ _ _ _ (fun _ _ hok => by cases hok; rfl) h⟩
  | reelSet tag reel steps => exact ⟨_, rfl, L.request _ _ _ _ (fun _ _ _ hok => L.reelSet hok h) h⟩
  | reelRead tag reel => exact ⟨_, rfl, L.requestRead _ _ _ _ (fun _ _ => handleReelRead_same) h⟩
  | insertArm tag body => exact ⟨_, rfl, L.request _ _ _ _ (fun _ _ _ hok => L.insertArm hok h) h⟩
  | insertCancel tag record => exact ⟨_, rfl, L.request _ _ _ _ (fun _ _ _ hok => L.insertCancel hok h) h⟩
  | insertReturn tag record => exact ⟨_, rfl, L.request _ _ _ _ (fun _ _ _ hok => L.insertReturn hok h) h⟩
  | insertClear tag record => exact ⟨_, rfl, L.request _ _ _ _ (fun _ _ _ hok => L.insertClear hok h) h⟩
  | insertRead tag record => exact ⟨_, rfl, L.requestRead _ _ _ _ (fun _ _ => handleInsertRead_same) h⟩
  | noticeFetch tag => exact ⟨_, rfl, L.requestReady _ _ _ _ (L.noticeFetch h) h⟩
  | systemIdentify tag => exact ⟨_, rfl, L.requestRead _ _ _ _ (fun _ _ hok => by cases hok; rfl) h⟩
  | statusRead tag => exact ⟨_, rfl, L.requestReady _ _ _ _ h h⟩
  | countsRead tag scope index clear => exact ⟨_, rfl, L.request _ _ _ _ (fun _ _ _ hok => L.countsRead hok h) h⟩
  | systemRestart tag => exact ⟨_, rfl, keep_ite (L.restart _ (L.readyReply _ _ _ _ h)) (L.same h rfl)⟩
  | linkByte link startOfCell byte => exact ⟨_, rfl, keep_ite (L.takeStart link byte h) (L.takeData link byte h)⟩
  | controlLinkByte byte => exact ⟨_, rfl, keep_ite (L.linkByte byte h) h⟩

/-- Every step keeps a law that does not read the queue. -/
theorem step (hq : ∀ (u : State) q, P u → P { u with pending := q }) (h : P s) (hst : step s = .next t) : P t := by
  unfold Machine.step at hst
  split at hst
  · cases hst
    have hpost : ∀ cs, P (s.post cs) := fun cs => L.same (hq s (freeOrder s.freeCount 64 cs) h) rfl
    unfold State.idle
    split
    · exact L.tick h
    · exact hpost _
    · split
      · exact L.tick (L.same h rfl)
      · exact hpost _
  · next c rest _ =>
    obtain ⟨u, hu, hP⟩ := L.exec c (hq s rest h)
    rw [hu] at hst
    cases hst
    exact hP

end StepLaw
end Sys2Proof.Machine

/-! SUPPORT. The laws of Safety.lean, each shown to withstand every update, and the statements about every step. -/

namespace Sys2Proof.Machine

/-! ## The Release Ring (R85) -/

theorem ringTagged_looseLaw : LooseLaw State.ringTagged (fun _ => True) where
  congr := congr_of_governed (fun _ => Iff.rfl)
  setRing _ _ _ hp h p hm := (hp p hm).elim (h p) (·.1)
  ofHandOn _ _ _ _ _ := trivial
  ofRelease _ _ _ _ := trivial
  ofAssembling _ _ _ _ _ _ _ := trivial
  powerOn _ _ := fun _ hm => nomatch hm
  restart _ _ := fun _ hm => nomatch hm
  setLink _ l _ _ _ _ _ h := by cases l <;> exact h
  linkDown _ l h := by cases l <;> exact h

/-- Settles O57: the ring is written only at its release slot's position, and every other update takes entries away. -/
theorem stepKeepsRingTags : Obligations.StepKeepsRingTags := by
  unfold Obligations.StepKeepsRingTags
  exact fun s t h hst => ringTagged_looseLaw.toStepLaw.step (fun _ _ hu => hu) h hst

/-! ## The queue of commands -/

theorem pending_looseLaw (q : List Instr) : LooseLaw (fun s => s.pending = q) (fun _ => True) where
  congr := congr_of_governed (fun _ => Iff.rfl)
  holdBack _ _ _ hu := hu
  ofHandOn _ _ _ _ _ := trivial
  ofRelease _ _ _ _ := trivial
  ofAssembling _ _ _ _ _ _ _ := trivial
  powerOn _ h := h
  restart _ h := h
  linkDown _ _ h := h

/-- Settles O2: every command has a next state and keeps the queue; an empty queue always has one. -/
theorem everyStepGoesOn : Obligations.EveryStepGoesOn := by
  unfold Obligations.EveryStepGoesOn
  refine ⟨fun s => ?_, fun c s => (pending_looseLaw s.pending).toStepLaw.exec c rfl⟩
  unfold step
  split
  · exact ⟨_, rfl⟩
  · next c rest _ =>
    obtain ⟨t, ht, _⟩ := (pending_looseLaw rest).toStepLaw.exec c (s := { s with pending := rest }) rfl
    exact ⟨t, ht⟩

/-! ## The permit line (R20) -/

theorem State.permitSound_dropPermit (s : State) : s.dropPermit.permitSound := fun h => (Bool.and_eq_true_iff.mp h).2

/-- The permit condition only gains by a link that comes up. -/
theorem State.permitCondition_setLink {s : State} {l : Link} {k : LinkState} (hup : (s.link l).up = true → k.up = true)
    (h : s.permitCondition = true) : (s.setLink l k).permitCondition = true := by
  have hlive : s.feedLive = true → (s.setLink l k).feedLive = true := by
    cases l <;> simp only [State.feedLive, State.setLink, Bool.or_eq_true]
    · exact Or.imp_left hup
    · exact Or.imp_right hup
  simp only [State.permitCondition, State.setLink_site, State.setLink_time, Bool.and_eq_true, Bool.not_eq_true',
    Bool.and_eq_false_iff, Bool.not_eq_false'] at h ⊢
  exact ⟨⟨h.1.1, h.1.2.imp_right hlive⟩, h.2⟩

theorem permitSound_stepLaw : StepLaw State.permitSound (fun _ => True) where
  congr := congr_of_governed (fun _ => Iff.rfl)
  setStepState s _ _ := State.permitSound_dropPermit _
  dropPermit s _ := s.permitSound_dropPermit
  assertPermit _ _ h := h
  setLink _ _ _ hup _ _ _ h hp := State.permitCondition_setLink hup (h hp)
  ofHandOn _ _ _ _ _ := trivial
  ofRelease _ _ _ _ := trivial
  ofAssembling _ _ _ _ _ _ _ := trivial
  powerOn _ _ := fun h => nomatch h
  restart _ _ := State.permitSound_dropPermit _
  phaseStep _ _ _ _ _ := State.permitSound_dropPermit _
  linkExpire _ _ _ := State.permitSound_dropPermit _
  timeConfig s t b f hok _ := by
    unfold handleTimeConfig at hok
    split at hok
    · cases hok
    · dsimp only at hok
      split at hok
      · cases hok
      · cases hok
        exact State.permitSound_dropPermit _
  applySite _ _ _ _ := State.permitSound_dropPermit _

/-- Settles O58: whatever can take the condition away drops the line with it, and only a slot boundary asserts it. -/
theorem stepKeepsPermitSound : Obligations.StepKeepsPermitSound := by
  unfold Obligations.StepKeepsPermitSound
  exact fun s t h hst => permitSound_stepLaw.step (fun _ _ hu => hu) h hst

end Sys2Proof.Machine
namespace Sys2Proof.Machine

/-! ## Canonical tables -/

/-- The canonical form, table by table. -/
theorem State.canonical_iff (s : State) : s.canonical = true ↔
    s.origins.wf = true ∧ s.streams.wf = true ∧ s.services.wf = true ∧ s.ring.wf = true ∧ s.clips.wf = true ∧
      s.clipCells.wf = true ∧ s.reels.wf = true ∧ s.insertions.wf = true ∧ s.channels.wf = true ∧
      s.assembler.bank0.entries.wf = true ∧ s.assembler.bank1.entries.wf = true := by
  simp only [State.canonical, Bool.and_eq_true, and_assoc]

theorem State.insertions_wf (s : State) (h : s.canonical = true) : s.insertions.wf = true := by
  obtain ⟨_, _, _, _, _, _, _, hw, _⟩ := s.canonical_iff.mp h
  exact hw

theorem canonical_looseLaw : LooseLaw (fun s => s.canonical = true) (fun _ => True) where
  congr := congr_of_governed (fun _ => Iff.rfl)
  setLink _ l _ _ _ _ _ h := by cases l <;> exact h
  linkDown _ l h := by cases l <;> exact h
  setOrigins s t ht h := by
    simp only [State.canonical_iff] at h ⊢
    exact ⟨ht h.1, h.2⟩
  setStreams s t ht h := by
    simp only [State.canonical_iff] at h ⊢
    exact ⟨h.1, ht h.2.1, h.2.2⟩
  setServices s t ht _ h := by
    simp only [State.canonical_iff] at h ⊢
    simp_all
  delService s k _ h := by
    simp only [State.canonical_iff] at h ⊢
    simp_all [Table.del_wf]
  setRing s t ht _ h := by
    simp only [State.canonical_iff] at h ⊢
    simp_all
  setAssembler s a ha _ h := by
    simp only [State.canonical_iff] at h ⊢
    simp_all
  setClips s t ht h := by
    simp only [State.canonical_iff] at h ⊢
    simp_all
  setClipCells s t ht _ h := by
    simp only [State.canonical_iff] at h ⊢
    simp_all
  setReels s t ht _ h := by
    simp only [State.canonical_iff] at h ⊢
    simp_all
  setChannels s t ht h := by
    simp only [State.canonical_iff] at h ⊢
    simp_all
  setInsertions s t ht _ h := by
    simp only [State.canonical_iff] at h ⊢
    simp_all
  putKept s k _ new _ _ _ h := by
    simp only [State.canonical_iff, State.putRecord] at h ⊢
    simp_all [Table.put_wf]
  putIdle s k new _ _ _ h := by
    simp only [State.canonical_iff, State.putRecord] at h ⊢
    simp_all [Table.put_wf]
  delDone s k _ _ _ h := by
    simp only [State.canonical_iff] at h ⊢
    simp_all [Table.del_wf]
  turn s k new _ h := by
    simp only [State.canonical_iff, State.putRecord, State.setSplice, State.updateService] at h ⊢
    simp_all [Table.put_wf, Table.update_wf]
  ofHandOn _ _ _ _ _ := trivial
  ofRelease _ _ _ _ := trivial
  ofAssembling _ _ _ _ _ _ _ := trivial
  powerOn _ _ := rfl
  restart s h := by
    simp only [State.canonical_iff, State.restart, State.dropPermit_origins, State.dropPermit_streams,
      State.dropPermit_services, State.dropPermit_ring, State.dropPermit_clips, State.dropPermit_clipCells,
      State.dropPermit_reels, State.dropPermit_insertions, State.dropPermit_channels, State.dropPermit_assembler] at h ⊢
    simp_all [Table.mapAll_wf, Assembler.restart]

/-- Settles O56: each table is changed by its own operations alone, and they keep the form. -/
theorem stepKeepsCanonical : Obligations.StepKeepsCanonical := by
  unfold Obligations.StepKeepsCanonical
  exact fun s t h hst => canonical_looseLaw.toStepLaw.step (fun _ _ hu => hu) h hst

/-! ## Bounds -/

theorem reset_queuesBounded : State.reset.queuesBounded := ⟨Nat.zero_le _, Nat.zero_le _, Nat.zero_le _⟩

theorem reset_loopInRange : State.reset.loopInRange := ⟨by decide, by decide, by decide, by decide⟩

theorem reset_siteTimeSound : State.reset.siteTimeSound := ⟨by decide, by decide, fun h => nomatch h⟩

theorem reset_cellsWhole : State.reset.cellsWhole := by
  refine ⟨fun l _ h => ?_, fun l _ h => ?_, ?_, ?_, ?_, ?_⟩
  · cases l <;> cases h
  · cases l <;> cases h
  all_goals exact fun _ h => absurd h List.not_mem_nil

theorem queuesBounded_looseLaw : LooseLaw State.queuesBounded (fun _ => True) where
  congr := congr_of_governed (fun _ => Iff.rfl)
  setNotices s ns hns h := ⟨hns.trans (Nat.max_le.mpr ⟨le_rfl, h.1⟩), h.2⟩
  setLink s l k _ _ hq _ h := by
    obtain ⟨hn, ha, hb⟩ := h
    cases l
    · exact ⟨hn, hq.trans (Nat.max_le.mpr ⟨le_rfl, ha⟩), hb⟩
    · exact ⟨hn, ha, hq.trans (Nat.max_le.mpr ⟨le_rfl, hb⟩)⟩
  holdBack s u hs hu := ⟨hs.1, hu.2⟩
  ofHandOn _ _ _ _ _ := trivial
  ofRelease _ _ _ _ := trivial
  ofAssembling _ _ _ _ _ _ _ := trivial
  powerOn _ _ := reset_queuesBounded
  restart _ _ := ⟨Nat.zero_le _, Nat.zero_le _, Nat.zero_le _⟩
  linkDown _ l h := by cases l <;> exact h

theorem loopInRange_looseLaw : LooseLaw State.loopInRange (fun _ => True) where
  congr := congr_of_governed (fun _ => Iff.rfl)
  setIntegrator s n hn h := ⟨h.1, h.2.1, hn⟩
  setSteering s n hn h := ⟨hn.1, hn.2, h.2.2⟩
  ofHandOn _ _ _ _ _ := trivial
  ofRelease _ _ _ _ := trivial
  ofAssembling _ _ _ _ _ _ _ := trivial
  powerOn _ _ := reset_loopInRange
  restart _ h := h
  linkDown _ _ h := h

theorem siteTimeSound_looseLaw : LooseLaw State.siteTimeSound (fun _ => True) where
  congr := congr_of_governed (fun _ => Iff.rfl)
  setHeld s held hh h := ⟨h.1, h.2.1, fun hs => (hh hs).elim h.2.2 id⟩
  setSecondDue s due hd h := ⟨h.1, h.2.1, fun hs => hd.resolve_right (Option.isSome_iff_ne_none.mp hs)⟩
  setTick s n hn h := ⟨hn, h.2⟩
  holdBack s u _ hu := ⟨hu.1, hu.2.1, fun _ => rfl⟩
  setSite s site hp h := ⟨h.1, hp, h.2.2⟩
  ofHandOn _ _ _ _ _ := trivial
  ofRelease _ _ _ _ := trivial
  ofAssembling _ _ _ _ _ _ _ := trivial
  powerOn _ _ := reset_siteTimeSound
  restart _ h := ⟨h.1, h.2.1, fun h => nomatch h⟩
  linkDown _ _ h := h

theorem cellsWhole_looseLaw : LooseLaw State.cellsWhole (fun cell => cell.length = 184) where
  congr := congr_of_governed (fun s => by
    have hlink : ∀ l, s.governed.link l = (s.link l).governed := fun l => by cases l <;> rfl
    simp only [State.cellsWhole, hlink]
    exact Iff.rfl)
  setLink s l k _ hd _ hq h := by
    obtain ⟨htaken, hcells, hrest⟩ := h
    refine ⟨fun m taken hm => ?_, fun m c hc => ?_, hrest⟩
    · cases l <;> cases m
      · exact (hd taken hm).elim (htaken .a taken) id
      · exact htaken .b taken hm
      · exact htaken .a taken hm
      · exact (hd taken hm).elim (htaken .b taken) id
    · cases l <;> cases m
      · exact (hq c hc).elim (hcells .a c) id
      · exact hcells .b c hc
      · exact hcells .a c hc
      · exact (hq c hc).elim (hcells .b c) id
  setRelease s q hq h := by
    obtain ⟨htaken, hcells, hrel, hrest⟩ := h
    exact ⟨htaken, hcells, fun x hx => (hq x hx).elim (hrel x) id, hrest⟩
  setRing s t _ ht h := by
    obtain ⟨htaken, hcells, hrel, hring, hrest⟩ := h
    exact ⟨htaken, hcells, hrel, fun p hp => (ht p hp).elim (hring p) (·.2), hrest⟩
  setAssembler s a _ ha h := by
    obtain ⟨htaken, hcells, hrel, hring, hcar, hrest⟩ := h
    exact ⟨htaken, hcells, hrel, hring, fun c hc => (ha c hc).elim (hcar c) id, hrest⟩
  setClipCells s t _ ht h := by
    obtain ⟨htaken, hcells, hrel, hring, hcar, hclip⟩ := h
    exact ⟨htaken, hcells, hrel, hring, hcar, fun p hp => (ht p hp).elim (hclip p) id⟩
  ofHandOn s l c hc h := h.2.1 l c hc
  ofRelease s x hx h := h.2.2.1 x hx
  ofAssembling s l taken b ht hlen h := by
    have := h.1 l taken ht
    simp only [List.length_drop, List.length_append, List.length_singleton]
    omega
  powerOn _ _ := reset_cellsWhole
  restart s h := by
    obtain ⟨htaken, hcells, hrel, hring, _, _⟩ := reset_cellsWhole
    obtain ⟨_, _, _, _, hcar, hclip⟩ := h
    exact ⟨fun l => by cases l <;> exact htaken .a, fun l => by cases l <;> exact hcells .a, hrel, hring, hcar, hclip⟩
  linkDown s l h := by
    obtain ⟨htaken, hcells, hrest⟩ := h
    refine ⟨fun m taken hm => htaken m taken ?_, fun m c hc => hcells m c ?_, hrest⟩
    · cases l <;> cases m <;> exact hm
    · cases l <;> cases m <;> exact hc

theorem reelsSound_looseLaw : LooseLaw State.reelsSound (fun _ => True) where
  congr := congr_of_governed (fun _ => Iff.rfl)
  setReels s t _ ht h p hp := by
    obtain ⟨q, hq, hsame⟩ | hsound := ht p hp
    · rw [hsame]
      exact h q hq
    · exact hsound
  ofHandOn _ _ _ _ _ := trivial
  ofRelease _ _ _ _ := trivial
  ofAssembling _ _ _ _ _ _ _ := trivial
  powerOn _ _ := fun _ hp => nomatch hp
  restart s h p hp := by
    obtain ⟨q, hq, rfl⟩ := List.mem_map.mp hp
    exact h q hq
  linkDown _ _ h := h

/-- Settles O59, bound by bound: each is one of the laws above. -/
theorem stepKeepsBounds : Obligations.StepKeepsBounds := by
  unfold Obligations.StepKeepsBounds
  exact ⟨fun s t h hst => queuesBounded_looseLaw.toStepLaw.step (fun _ _ hu => hu) h hst,
    fun s t h hst => loopInRange_looseLaw.toStepLaw.step (fun _ _ hu => hu) h hst,
    fun s t h hst => siteTimeSound_looseLaw.toStepLaw.step (fun _ _ hu => hu) h hst,
    fun s t h hst => cellsWhole_looseLaw.toStepLaw.step (fun _ _ hu => hu) h hst,
    fun s t h hst => reelsSound_looseLaw.toStepLaw.step (fun _ _ hu => hu) h hst⟩

end Sys2Proof.Machine
namespace Sys2Proof.Machine

/-! ## The law of splices (R140) -/

section

variable {s t : State} {k : Nat}

theorem Insertion.holds_congr {r q : Insertion} (h : r.state = q.state) : r.holds = q.holds := by
  simp [Insertion.holds, h]

theorem Insertion.not_done_of_holds {r : Insertion} (h : r.holds = true) : r.state ≠ .done := fun hd => by
  simp [Insertion.holds, hd] at h

theorem Insertion.spliceGiven_of_not_holds {r : Insertion} (h : r.holds = false) : r.state.spliceGiven = .network := by
  by_contra hne
  rw [r.holds_iff_splice.mpr hne] at h
  cases h

/-- Records whose states and services are as before, and services that are as before, keep the law. -/
theorem State.insertionSound_congr
    (hr : ∀ j, (t.insertions.get j).map (fun r => (r.state, r.service)) =
      (s.insertions.get j).map (fun r => (r.state, r.service)))
    (hs : ∀ j, t.spliceOf j = s.spliceOf j ∧ t.activeOf j = s.activeOf j ∧
      ((s.services.get j).isSome = true → (t.services.get j).isSome = true))
    (h : s.insertionSound) : t.insertionSound := by
  obtain ⟨hvalid, hgiven, hfree⟩ := h
  have hback : ∀ {u v : State}, (∀ j, (u.insertions.get j).map (fun r => (r.state, r.service)) =
      (v.insertions.get j).map (fun r => (r.state, r.service))) → ∀ {j r}, u.insertions.get j = some r →
      ∃ q, v.insertions.get j = some q ∧ q.state = r.state ∧ q.service = r.service := by
    intro u v huv j r hj
    have := huv j
    rw [hj] at this
    cases hq : v.insertions.get j with
    | none => simp [hq] at this
    | some q =>
      simp only [hq, Option.map_some, Option.some.injEq, Prod.mk.injEq] at this
      exact ⟨q, rfl, this.1.symm, this.2.symm⟩
  refine ⟨fun j r hj hd => ?_, fun j r hj hh => ?_, fun j hj => ?_⟩
  · obtain ⟨q, hq, hst, hsv⟩ := hback hr hj
    rw [← hsv]
    exact (hs _).2.2 (hvalid j q hq (hst ▸ hd))
  · obtain ⟨q, hq, hst, hsv⟩ := hback hr hj
    rw [← hsv, ← hst, (hs _).1, (hs _).2.1]
    exact hgiven j q hq ((Insertion.holds_congr hst).trans hh)
  · rw [(hs _).1, (hs _).2.1]
    refine hfree j (fun i q hq hh => ?_)
    obtain ⟨r, hir, hst, hsv⟩ := hback (fun j => (hr j).symm) hq
    rw [← hsv]
    exact hj i r hir ((Insertion.holds_congr hst).trans hh)

theorem State.get_of_idleAt (hw : s.insertions.wf = true) (h : s.idleAt k) :
    ∀ r, s.insertions.get k = some r → r.holds = false := by
  intro r hr
  obtain hnone | ⟨q, hq, hh⟩ := h
  · rw [hnone] at hr
    cases hr
  · rw [Table.get_of_mem hw hq] at hr
    cases hr
    exact hh

theorem State.valid_of_knownService {service : Nat} (hw : s.insertions.wf = true) (h : s.insertionSound)
    (hk : s.knownService k service) : (s.services.get service).isSome = true := by
  obtain hv | ⟨r, hr, hd, rfl⟩ := hk
  · exact hv
  · exact h.1 k r (Table.get_of_mem hw hr) hd

/-- A record that holds nothing comes to stand where none held anything. -/
theorem State.insertionSound_putIdle {new : Insertion} (hw : s.insertions.wf = true) (hi : s.idleAt k)
    (hn : new.holds = false) (hv : new.state ≠ .done → s.knownService k new.service) (h : s.insertionSound) :
    (s.putRecord k new).insertionSound := by
  have hget : ∀ {j r}, j ≠ k → ((s.putRecord k new).insertions.get j = some r ↔ s.insertions.get j = some r) :=
    fun hj => by rw [show (s.putRecord k new).insertions = s.insertions.put k new from rfl, Table.get_put_other _ _ hj]
  have hsame : (s.putRecord k new).insertions.get k = some new := Table.get_put_same ..
  refine ⟨fun j r hj hd => ?_, fun j r hj hh => ?_, fun j hj => h.2.2 j (fun i q hq hh => ?_)⟩
  · by_cases hjk : j = k
    · subst hjk
      cases hsame.symm.trans hj
      exact s.valid_of_knownService hw h (hv hd)
    · exact h.1 j r ((hget hjk).mp hj) hd
  · by_cases hjk : j = k
    · subst hjk
      cases hsame.symm.trans hj
      rw [hn] at hh
      cases hh
    · exact h.2.1 j r ((hget hjk).mp hj) hh
  · by_cases hik : i = k
    · subst hik
      rw [s.get_of_idleAt hw hi q hq] at hh
      cases hh
    · exact hj i q ((hget hik).mpr hq) hh

/-- What a turn of a record needs: its service is valid, no other record holds it, and it held no other. -/
theorem State.mayTurn_spec {service : Nat} (hw : s.insertions.wf = true) (h : s.insertionSound) (ht : s.mayTurn k service) :
    (s.services.get service).isSome = true ∧
      (∀ j q, j ≠ k → s.insertions.get j = some q → q.holds = true → q.service ≠ service) ∧
      ∀ q, s.insertions.get k = some q → q.holds = true → q.service = service := by
  have ⟨hvalid, hgiven, _⟩ := h
  obtain ⟨r, hr, hh, rfl⟩ | ⟨hidle, hknown, hnet⟩ := ht
  · have hkr := Table.get_of_mem hw hr
    refine ⟨hvalid k r hkr (r.not_done_of_holds hh), fun j q hjk hq hqh hqs => hjk ?_, fun q hq _ => ?_⟩
    · have hj := (hgiven j q hq hqh).2
      rw [hqs, (hgiven k r hkr hh).2] at hj
      exact (Option.some.inj hj).symm
    · rw [hkr] at hq
      cases hq
      rfl
  · refine ⟨s.valid_of_knownService hw h hknown, fun j q _ hq hqh hqs => ?_, fun q hq hqh => ?_⟩
    · rcases hnet with hnet | hnone
      · rw [← hqs, (hgiven j q hq hqh).1] at hnet
        exact q.holds_iff_splice.mp hqh hnet
      · exact State.holder_none hnone (Table.mem_of_get hq) hqh hqs
    · rw [s.get_of_idleAt hw hidle q hq] at hqh
      cases hqh

theorem State.insertionSound_turn {new : Insertion} (hw : s.insertions.wf = true) (ht : s.mayTurn k new.service)
    (h : s.insertionSound) :
    ((s.setSplice new.service new.state.spliceGiven (if new.holds then some k else none)).putRecord k
      new).insertionSound := by
  obtain ⟨hservice, hothers, hown⟩ := s.mayTurn_spec hw h ht
  obtain ⟨x, hx⟩ := Option.isSome_iff_exists.mp hservice
  obtain ⟨hvalid, hgiven, hfree⟩ := h
  set u := (s.setSplice new.service new.state.spliceGiven (if new.holds then some k else none)).putRecord k new with hu
  have hget : ∀ {j r}, j ≠ k → (u.insertions.get j = some r ↔ s.insertions.get j = some r) :=
    fun hj => by rw [show u.insertions = s.insertions.put k new from rfl, Table.get_put_other _ _ hj]
  have hsame : u.insertions.get k = some new := Table.get_put_same ..
  have hother : ∀ j, j ≠ new.service → u.services.get j = s.services.get j := fun j hj =>
    Table.get_update_other s.services _ hj
  have hnew : u.services.get new.service = some { x with
      splice := new.state.spliceGiven, active := if new.holds then some k else none } :=
    (Table.get_update_same s.services new.service _).trans (by rw [hx]; rfl)
  refine ⟨fun j r hj hd => ?_, fun j r hj hh => ?_, fun j hj => ?_⟩
  · have hkeep : (s.services.get r.service).isSome = true → (u.services.get r.service).isSome = true := by
      intro hs
      by_cases hrs : r.service = new.service
      · rw [hrs, hnew]
        rfl
      · rw [hother _ hrs]
        exact hs
    by_cases hjk : j = k
    · subst hjk
      cases hsame.symm.trans hj
      exact hkeep hservice
    · exact hkeep (hvalid j r ((hget hjk).mp hj) hd)
  · by_cases hjk : j = k
    · subst hjk
      cases hsame.symm.trans hj
      simp [State.spliceOf, State.activeOf, hnew, hh]
    · have hj := (hget hjk).mp hj
      have hg := hgiven j r hj hh
      simpa only [State.spliceOf, State.activeOf, hother _ (hothers j r hjk hj hh)] using hg
  · by_cases hjs : j = new.service
    · subst hjs
      have hn : new.holds = false := by
        by_contra hh
        exact hj k new hsame (by simpa using hh) rfl
      simp [State.spliceOf, State.activeOf, hnew, hn, new.spliceGiven_of_not_holds hn]
    · have hunheld : s.unheld j := by
        intro i q hq hqh
        by_cases hik : i = k
        · subst hik
          rw [hown q hq hqh]
          exact Ne.symm hjs
        · exact hj i q ((hget hik).mpr hq) hqh
      simpa only [State.spliceOf, State.activeOf, hother j hjs] using hfree j hunheld

theorem State.insertionSound_delDone {r : Insertion} (hw : s.insertions.wf = true) (hr : s.insertions.get k = some r)
    (hd : r.state = .done) (h : s.insertionSound) :
    ({ s with insertions := s.insertions.del k } : State).insertionSound := by
  have hget : ∀ {j q}, (s.insertions.del k).get j = some q → s.insertions.get j = some q := by
    intro j q hq
    by_cases hj : j = k
    · rw [hj, Table.get_del_same k hw] at hq
      cases hq
    · rwa [Table.get_del_other _ hj] at hq
  refine ⟨fun j q hq => h.1 j q (hget hq), fun j q hq => h.2.1 j q (hget hq), fun j hj =>
    h.2.2 j (fun i q hq hh => ?_)⟩
  by_cases hi : i = k
  · subst hi
    cases hr.symm.trans hq
    exact absurd hd (r.not_done_of_holds hh)
  · exact hj i q ((Table.get_del_other _ hi).trans hq) hh

theorem State.insertionSound_delService (hw : s.services.wf = true)
    (hk : ∀ j r, (j, r) ∈ s.insertions → r.state ≠ .done → r.service ≠ k) (h : s.insertionSound) :
    ({ s with services := s.services.del k } : State).insertionSound := by
  have hget : ∀ j, j ≠ k → (s.services.del k).get j = s.services.get j := fun j hj => Table.get_del_other _ hj
  refine ⟨fun j r hr hd => ?_, fun j r hr hh => ?_, fun j hj => ?_⟩
  · rw [hget _ (hk j r (Table.mem_of_get hr) hd)]
    exact h.1 j r hr hd
  · have hne := hk j r (Table.mem_of_get hr) (r.not_done_of_holds hh)
    simpa only [State.spliceOf, State.activeOf, hget _ hne] using h.2.1 j r hr hh
  · by_cases hjk : j = k
    · subst hjk
      simp [State.spliceOf, State.activeOf, Table.get_del_same j hw]
    · simpa only [State.spliceOf, State.activeOf, hget _ hjk] using h.2.2 j hj

theorem reset_insertionSound : State.reset.insertionSound :=
  ⟨fun _ _ h => (nomatch h), fun _ _ h => (nomatch h), fun _ _ => ⟨rfl, rfl⟩⟩

theorem State.insertionSound_restart : s.restart.insertionSound := by
  refine ⟨fun _ _ h => (nomatch h), fun _ _ h => (nomatch h), fun j _ => ?_⟩
  have hget : s.restart.services.get j = (s.services.get j).map ServiceEntry.restart := Table.get_mapAll ..
  cases hj : s.services.get j <;> simp [State.spliceOf, State.activeOf, hget, hj, ServiceEntry.restart, ServiceEntry.fresh]

end

/-- The law of splices together with the canonical form, which it leans on. -/
theorem insertionSound_looseLaw :
    LooseLaw (fun s => s.canonical = true ∧ s.insertionSound) (fun _ => True) where
  congr := congr_of_governed (fun _ => Iff.rfl)
  setLink s l k h1 h2 h3 h4 h := ⟨canonical_looseLaw.setLink s l k h1 h2 h3 (fun _ _ => Or.inr trivial) h.1, h.2⟩
  linkDown s l h := ⟨canonical_looseLaw.linkDown s l h.1, h.2⟩
  setOrigins s t ht h := ⟨canonical_looseLaw.setOrigins s t ht h.1, h.2⟩
  setStreams s t ht h := ⟨canonical_looseLaw.setStreams s t ht h.1, h.2⟩
  setServices s t ht hs h :=
    ⟨canonical_looseLaw.setServices s t ht hs h.1, State.insertionSound_congr (s := s) (fun _ => rfl) hs h.2⟩
  delService s k hk h := ⟨canonical_looseLaw.delService s k hk h.1,
    State.insertionSound_delService (s.canonical_iff.mp h.1).2.2.1 hk h.2⟩
  setRing s t ht hp h :=
    ⟨canonical_looseLaw.setRing s t ht (fun p hm => (hp p hm).imp_right (fun x => ⟨x.1, trivial⟩)) h.1, h.2⟩
  setAssembler s a ha hc h := ⟨canonical_looseLaw.setAssembler s a ha hc h.1, h.2⟩
  setClips s t ht h := ⟨canonical_looseLaw.setClips s t ht h.1, h.2⟩
  setClipCells s t ht hp h := ⟨canonical_looseLaw.setClipCells s t ht hp h.1, h.2⟩
  setReels s t ht hp h := ⟨canonical_looseLaw.setReels s t ht hp h.1, h.2⟩
  setChannels s t ht h := ⟨canonical_looseLaw.setChannels s t ht h.1, h.2⟩
  setInsertions s t ht hr h :=
    ⟨canonical_looseLaw.setInsertions s t ht hr h.1,
      State.insertionSound_congr (s := s) hr (fun _ => ⟨rfl, rfl, id⟩) h.2⟩
  putKept s k old new hm hst hsv h := by
    refine ⟨canonical_looseLaw.putKept s k old new hm hst hsv h.1,
      State.insertionSound_congr (s := s) (fun j => ?_) (fun _ => ⟨rfl, rfl, id⟩) h.2⟩
    have hget := Table.get_of_mem (s.insertions_wf h.1) hm
    by_cases hj : j = k
    · subst hj
      simp [State.putRecord, hget, hst, hsv]
    · simp [State.putRecord, Table.get_put_other _ _ hj]
  putIdle s k new hi hn hv h := ⟨canonical_looseLaw.putIdle s k new hi hn hv h.1,
    State.insertionSound_putIdle (s.insertions_wf h.1) hi hn hv h.2⟩
  delDone s k r hr hd h := ⟨canonical_looseLaw.delDone s k r hr hd h.1,
    State.insertionSound_delDone (s.insertions_wf h.1) hr hd h.2⟩
  turn s k new ht h := ⟨canonical_looseLaw.turn s k new ht h.1,
    State.insertionSound_turn (s.insertions_wf h.1) ht h.2⟩
  ofHandOn _ _ _ _ _ := trivial
  ofRelease _ _ _ _ := trivial
  ofAssembling _ _ _ _ _ _ _ := trivial
  powerOn s h := ⟨rfl, reset_insertionSound⟩
  restart s h := ⟨canonical_looseLaw.restart s h.1, State.insertionSound_restart⟩

/-- Settles O60: records that take a service over, give it up or pass it on do so together with its entry; the law in
R140's own words is what a sound state says of each service. -/
theorem stepKeepsInsertionLaw : Obligations.StepKeepsInsertionLaw := by
  unfold Obligations.StepKeepsInsertionLaw
  refine ⟨fun s t hc hs hst => (insertionSound_looseLaw.toStepLaw.step (fun _ _ hu => hu) ⟨hc, hs⟩ hst).2,
    fun s hs k => ⟨⟨fun hnet j r hr hk => ?_, fun hnone => (hs.2.2 k fun j r hr hh hk => ?_).1⟩,
      fun i j q r hq hr hqh hrh hqk hrk => ?_⟩⟩
  · have hnot : ¬r.holds = true := fun hh => by
      have hgiven := (hs.2.1 j r hr hh).1
      rw [hk, hnet] at hgiven
      exact r.holds_iff_splice.mp hh hgiven.symm
    rw [r.holds_iff] at hnot
    tauto
  · have := hnone j r hr hk
    rw [r.holds_iff] at hh
    tauto
  · have hi := (hs.2.1 i q hq hqh).2
    have hj := (hs.2.1 j r hr hrh).2
    rw [hqk] at hi
    rw [hrk, hi] at hj
    exact Option.some.inj hj

/-! ## The laws at reset -/

/-- Settles O55: every table is empty and every line is down at reset. -/
theorem resetIsSound : Obligations.ResetIsSound := by
  unfold Obligations.ResetIsSound
  exact ⟨rfl, fun _ h => absurd h List.not_mem_nil, fun h => (nomatch h), reset_queuesBounded, reset_loopInRange,
    reset_siteTimeSound, reset_cellsWhole, fun _ h => absurd h List.not_mem_nil, reset_insertionSound⟩

/-- Settles O1: a step takes the front of the queue by definition. -/
theorem stepFrontOfQueue : Obligations.StepFrontOfQueue := by
  unfold Obligations.StepFrontOfQueue
  intro c rest s hq
  unfold step
  rw [hq]

end Sys2Proof.Machine

/-! SUPPORT. The resets and the Time Unit (01): the statements about the state after reset, the restart, edges that are not
qualified, the loss of the reference and the requests TIME.SET, TIME.CLEAR and TIME.CONFIG. -/

namespace Sys2Proof.Machine

/-! ## The resets -/

/-- Settles O4: each block's fields are what its reset value writes. -/
theorem resetState : Obligations.ResetState := by
  unfold Obligations.ResetState
  exact ⟨by decide, fun l => by cases l <;> decide, by decide, by decide, by decide, by decide, by decide⟩

/-- While both links are DOWN the permit condition asks for no feed-loss mute, and after a restart for SOLO. -/
theorem State.permitCondition_restart (s : State) :
    s.restart.permitCondition = (s.site.output && !s.site.mute && decide (s.time.config.policy = .solo)) := by
  have hlive : s.restart.feedLive = false := rfl
  have hsite : s.restart.site = s.site := rfl
  have hstate : s.restart.time.stepState = .free := rfl
  have hpolicy : s.restart.time.config = s.time.config := rfl
  simp [State.permitCondition, hlive, hsite, hstate, hpolicy]

theorem State.permit_dropPermit (s : State) : s.dropPermit.output.permit = (s.output.permit && s.dropPermit.permitCondition) :=
  rfl

/-- Settles O5: the reply is formed of the state before the restart, and then each block restarts. -/
theorem resetAndRestart : Obligations.ResetAndRestart := by
  unfold Obligations.ResetAndRestart
  refine ⟨fun s => rfl, fun tag s hmay => ?_⟩
  have hexec : exec (.systemRestart tag) s = .next (s.readyReply 0x0705#16 tag .ok []).restart :=
    congrArg Host.Outcome.next (if_pos ((s.mayHandle_iff _).mpr hmay))
  have hpermit : (s.readyReply 0x0705#16 tag .ok []).restart.output.permit =
      (s.output.permit && s.site.output && !s.site.mute && decide (s.time.config.policy = .solo)) := by
    have h := (s.readyReply 0x0705#16 tag .ok []).permitCondition_restart
    have hp : (s.readyReply 0x0705#16 tag .ok []).restart.output.permit =
      (s.output.permit && (s.readyReply 0x0705#16 tag .ok []).restart.permitCondition) := rfl
    rw [hp, h, ← Bool.and_assoc, ← Bool.and_assoc]
    rfl
  have hreply : (s.readyReply 0x0705#16 tag .ok []).restart.control.reply = .ready (frameOf 0x8705#16 tag ([0] ++ s.summary)) := by
    show ReplyPhase.ready (frameOf (0x0705#16 + 0x8000#16) tag ([0] ++ s.summary ++ [])) = _
    rw [List.append_nil]
    rfl
  refine ⟨_, hexec, hreply, rfl, rfl, rfl, rfl, rfl, ?_, rfl, rfl, rfl, rfl, fun k => Table.get_mapAll .., fun k =>
    Table.get_mapAll .., rfl, rfl, rfl, rfl, rfl, rfl, rfl, rfl, rfl, rfl, fun k => Table.get_mapAll s.clips (fun e => { e with pins := 0 }) k, rfl, fun k =>
    Table.get_mapAll s.reels (fun r => { r with uses := 0 }) k, rfl, rfl, rfl, rfl, hpermit⟩
  simp [State.attention, ControlLink.replyReady, hreply]

/-! ## PPS edges that are not qualified (R6, R7) -/

section

variable {s : State} {edge : Edge}

/-- An edge of the configured polarity is captured while the source is enabled (R6). -/
theorem exec_ppsEdge_captured (hs : s.time.config.sourceEnabled = true) (he : edge = s.time.config.polarity) :
    exec (.ppsEdge edge) s = .next s.captureEdge :=
  congrArg Host.Outcome.next (if_pos ⟨hs, he⟩)

theorem State.captureEdge_first (h : s.time.refEdge = false) :
    s.captureEdge = s.newReference s.time.tick (phaseError s.time.tick) none := by
  unfold State.captureEdge
  exact if_pos h

theorem State.captureEdge_glitch (h : s.time.refEdge = true) (hi : s.time.interval < 9999000) :
    s.captureEdge = { s with time := { s.time with glitchCount := bump s.time.glitchCount } } := by
  unfold State.captureEdge
  simp only [h, if_pos hi, if_neg (show ¬(true = false) by decide)]

theorem State.captureEdge_qualified (h : s.time.refEdge = true) (hlo : 9999000 ≤ s.time.interval)
    (hhi : s.time.interval ≤ 10001000) :
    s.captureEdge = (s.newReference s.time.tick (phaseError s.time.tick) (some s.time.interval)).qualifiedEdge s.time.tick
      (phaseError s.time.tick) := by
  unfold State.captureEdge
  simp only [h, if_neg (not_lt.mpr hlo), if_pos hhi, if_neg (show ¬(true = false) by decide)]

theorem State.captureEdge_long (h : s.time.refEdge = true) (hi : 10001000 < s.time.interval) :
    s.captureEdge = (s.newReference s.time.tick (phaseError s.time.tick) (some s.time.interval)).longEdge := by
  unfold State.captureEdge
  simp only [h, if_neg (show ¬(true = false) by decide), if_neg (show ¬s.time.interval < 9999000 by omega),
    if_neg (not_le.mpr hi)]

/-- The phase error (R6). -/
theorem phaseError_eq (c : Nat) : phaseError c = if c < 5000000 then (c : Int) else (c : Int) - 10000000 := rfl

end

/-- Settles O8, by what the captured edge is: the first, a glitch, a long one; or it is not captured. -/
theorem edgesNotQualified : Obligations.EdgesNotQualified := by
  unfold Obligations.EdgesNotQualified
  refine ⟨fun edge s hs he hr => ?_, fun edge s hs he hr hi => ?_, fun edge s hs he hr hi => ?_, fun edge s hno => ?_⟩
  · rw [exec_ppsEdge_captured hs he, State.captureEdge_first hr]
    rfl
  · rw [exec_ppsEdge_captured hs he, State.captureEdge_glitch hr hi, bump_eq]
  · rw [exec_ppsEdge_captured hs he, State.captureEdge_long hr hi]
    rfl
  · refine congrArg Host.Outcome.next (if_neg ?_)
    rintro ⟨hs, he⟩
    rcases hno with h | h
    · rw [hs] at h
      cases h
    · exact h he

/-! ## The loss of the reference (R8, R16) -/

/-- The STEP notice of a step state entered while none is held back and the queue has room. -/
theorem State.enterStep_control (new : StepState) (cause : StepCause) {s : State} (hh : s.heldNotices = none)
    (hr : s.control.notices.length < 64) :
    (s.enterStep new cause).control = { s.control with
      notices := s.noticesWith (.step s.time.stepState new cause 0) } := by
  rw [State.enterStep_room _ _ hh hr]

/-- Settles O11, by the step state: FREE and HOLDOVER stay, ACQUIRE and INSTEP enter another one. -/
theorem referenceLost : Obligations.ReferenceLost := by
  unfold Obligations.ReferenceLost
  intro s ht
  have hexec : exec .referenceLost s = .next ({ s with time := { s.time with
      refTimer := none, refExpired := true, lostCount := bump s.time.lostCount } } : State).loseReference :=
    congrArg Host.Outcome.next (if_pos ht)
  refine ⟨_, hexec, ?_⟩
  unfold State.loseReference
  cases hstate : s.time.stepState with
  | free =>
    simp [hstate, bump_eq]
  | holdover =>
    simp [hstate, bump_eq]
  | acquire =>
    simp only [hstate]
    refine ⟨rfl, rfl, rfl, rfl, rfl, rfl, rfl, rfl, by simp, fun _ => ⟨rfl, rfl⟩, by simp, by simp, ?_, fun _ hh hr => ?_,
      rfl, rfl, rfl⟩
    · exact (if_pos (Or.inl trivial)).symm
    · exact State.enterStep_control _ _ hh hr
  | instep =>
    simp only [hstate]
    split
    · next hlimit =>
      refine ⟨rfl, rfl, rfl, rfl, rfl, rfl, rfl, rfl, by simp, by simp, fun _ _ => ⟨rfl, rfl⟩, fun _ h => ?_, ?_,
        fun _ hh hr => ?_, rfl, rfl, rfl⟩
      · omega
      · exact (if_pos (Or.inr trivial)).symm
      · exact State.enterStep_control _ _ hh hr
    · next hlimit =>
      refine ⟨rfl, rfl, rfl, rfl, rfl, rfl, rfl, rfl, by simp, by simp, fun _ h => absurd h hlimit, fun _ _ => ⟨rfl, rfl⟩, ?_,
        fun _ hh hr => ?_, rfl, rfl, rfl⟩
      · exact (if_pos (Or.inr trivial)).symm
      · exact State.enterStep_control _ _ hh hr

end Sys2Proof.Machine

/-! SUPPORT. Requests answered, and TIME.SET, TIME.CLEAR and TIME.CONFIG at the Time Unit (R3, R11, R21). -/

namespace Sys2Proof.Machine

section

variable {i : Instr} {kind tag : BitVec 16} {handle : State → Answer} {s t : State} {f : Bytes} {code : ResultCode}

/-- A request that its block answers with OK ends with these fields waiting. -/
theorem next_request_ok (h : s.mayTake i) (hw : i.wellFormed = true) (ha : handle s = .ok t f) :
    (.next (s.request i kind tag handle) : Host.Outcome State Fault Refusal) = .next (t.okWaits kind tag f) := by
  rw [State.request_handled kind tag handle h hw, ha, State.answered_ok]

/-- A request that its block refuses ends with the refusal waiting. -/
theorem next_request_refuse (h : s.mayTake i) (hw : i.wellFormed = true) (ha : handle s = .refuse code) :
    (.next (s.request i kind tag handle) : Host.Outcome State Fault Refusal) = .next (s.refusalWaits kind tag code) := by
  rw [State.request_handled kind tag handle h hw, ha, State.answered_refuse]

end

/-! ## TIME.SET and TIME.CLEAR (R3, R11) -/

theorem handleTimeSet_free {s : State} (S : Epoch) (h : s.time.pendingSet = none) :
    handleTimeSet S s = .ok { s with time := { s.time with pendingSet := some S } } [] := by
  simp [handleTimeSet, h]

theorem handleTimeSet_pending {s : State} (S : Epoch) (h : s.time.pendingSet ≠ none) :
    handleTimeSet S s = .refuse .pending :=
  if_pos (Option.isSome_iff_ne_none.mpr h)

theorem handleTimeClear_unread {s : State} {c : Byte} (h0 : c ≠ 0#8) (h1 : c ≠ 1#8) : handleTimeClear c s = .refuse .range := by
  have hread : readChoice false true c = none := by
    unfold readChoice
    exact (if_neg h0).trans (if_neg h1)
  unfold handleTimeClear
  rw [hread]

/-- Settles O12, choice by choice. -/
theorem timeSetAndClear : Obligations.TimeSetAndClear := by
  unfold Obligations.TimeSetAndClear
  refine ⟨fun tag S s h => ⟨fun hfree => ?_, fun hheld => ?_⟩, fun tag s => ⟨fun h => ?_, fun h => ?_, fun c h0 h1 h => ?_⟩⟩
  · exact next_request_ok h rfl (handleTimeSet_free S hfree)
  · exact next_request_refuse h rfl (handleTimeSet_pending S hheld)
  · exact next_request_ok h rfl rfl
  · exact next_request_ok h rfl rfl
  · exact next_request_refuse h rfl (handleTimeClear_unread h0 h1)

/-! ## TIME.CONFIG (R21) -/

/-- The configuration a TIME.CONFIG within its ranges asks for. -/
def requestedTime (b : TimeConfigBody) : TimeConfig :=
  { sourceEnabled := decide (b.source = 0#8), polarity := if b.polarity = 0#8 then .rising else .falling
    kp := b.kp.toNat, ki := b.ki.toNat, window := b.window.toNat, qualify := b.qualify.toNat
    holdoverLimit := b.holdover.toNat, policy := if b.policy = 0#8 then .lockstep else .solo }

/-- A change of polarity while the source stays enabled (R21). -/
def TimeConfig.turnsPolarity (new old : TimeConfig) : Prop :=
  new.polarity ≠ old.polarity ∧ old.sourceEnabled = true ∧ new.sourceEnabled = true

theorem handleTimeConfig_busy {b : TimeConfigBody} {s : State} {new : TimeConfig} (hread : readTimeConfig b = some new)
    (h : new.turnsPolarity s.time.config) : handleTimeConfig b s = .refuse .busy := by
  unfold handleTimeConfig
  simp only [hread]
  exact if_pos h

theorem handleTimeConfig_accepted {b : TimeConfigBody} {s : State} {new : TimeConfig} (hread : readTimeConfig b = some new)
    (h : ¬new.turnsPolarity s.time.config) : handleTimeConfig b s =
      .ok (if s.time.config.sourceEnabled && !new.sourceEnabled then
        ({ s with time := { s.time with config := new } } : State).disableSource
        else { s with time := { s.time with config := new } }).dropPermit [] := by
  unfold handleTimeConfig
  simp only [hread]
  exact if_neg h

theorem State.disableSource_free {s : State} (h : s.time.stepState = .free) : s.disableSource = { s with time := { s.time with
    refEdge := false, interval := 0, refTimer := none, refExpired := false, holdover := none, qualifyCount := 0 } } := by
  unfold State.disableSource
  exact if_pos h

theorem State.disableSource_leaves {s : State} (h : s.time.stepState ≠ .free) :
    s.disableSource = ({ s with time := { s.time with
      refEdge := false, interval := 0, refTimer := none, refExpired := false, holdover := none
      qualifyCount := 0 } } : State).enterStep .free .sourceDisabled := by
  unfold State.disableSource
  exact if_neg h

/-- A permit line that has followed its condition is not dropped again. -/
theorem State.enterStep_dropPermit (new : StepState) (cause : StepCause) (s : State) :
    (s.enterStep new cause).dropPermit = s.enterStep new cause := by
  have hidem : ∀ u : State, u.dropPermit.dropPermit = u.dropPermit := fun u => by
    have hp : (u.dropPermit.output.permit && u.dropPermit.permitCondition) = u.dropPermit.output.permit := by
      show (u.output.permit && u.permitCondition && u.permitCondition) = (u.output.permit && u.permitCondition)
      rw [Bool.and_assoc, Bool.and_self]
    show ({ u.dropPermit with output := { u.dropPermit.output with
      permit := u.dropPermit.output.permit && u.dropPermit.permitCondition } } : State) = u.dropPermit
    rw [hp]
  exact hidem _

/-- Settles O13: the ranges, the change of polarity, and an accepted configuration with or without its source disabled. -/
theorem timeConfig : Obligations.TimeConfig := by
  unfold Obligations.TimeConfig
  intro tag b s h inRange new
  have hread : inRange → readTimeConfig b = some new := fun hin => (readTimeConfig_eq b).trans (if_pos hin)
  refine ⟨fun hout => ?_, fun hin hkept => ?_, fun hin hpol hold hnew => ?_⟩
  · have hunread : readTimeConfig b = none := (readTimeConfig_eq b).trans (if_neg hout)
    refine next_request_refuse h rfl ?_
    unfold handleTimeConfig
    rw [hunread]
  · have hturn : ¬new.turnsPolarity s.time.config := by
      rintro ⟨hpol, hold, hnew⟩
      rcases hkept with h | h | h
      · exact hpol h
      · rw [hold] at h
        cases h
      · rw [hnew] at h
        cases h
    refine ⟨_, next_request_ok h rfl (handleTimeConfig_accepted (hread hin) hturn), ?_⟩
    cases hdis : s.time.config.sourceEnabled && !new.sourceEnabled
    · simp only [Bool.and_eq_false_iff, Bool.not_eq_false'] at hdis
      refine ⟨rfl, rfl, rfl, rfl, rfl, rfl, fun hold hnew => ?_, fun _ => ⟨rfl, rfl⟩⟩
      rcases hdis with h | h
      · rw [hold] at h
        cases h
      · rw [hnew] at h
        cases h
    · simp only [Bool.and_eq_true, Bool.not_eq_true'] at hdis
      have hnot : ¬(s.time.config.sourceEnabled = false ∨ new.sourceEnabled = true) := by simp [hdis]
      rw [if_pos rfl]
      by_cases hfree : s.time.stepState = .free
      · rw [State.disableSource_free (s := { s with time := { s.time with config := new } }) hfree]
        exact ⟨rfl, rfl, rfl, rfl, rfl, rfl, fun _ _ => ⟨hfree, rfl, rfl, rfl, rfl, fun _ => rfl, fun hne => absurd hfree hne⟩,
          fun hno => absurd hno hnot⟩
      · rw [State.disableSource_leaves (s := { s with time := { s.time with config := new } }) hfree,
          State.enterStep_dropPermit]
        refine ⟨rfl, rfl, rfl, rfl, rfl, rfl, fun _ _ => ⟨rfl, rfl, rfl, rfl, rfl, fun hf => absurd hf hfree,
          fun _ hh hr => ?_⟩, fun hno => absurd hno hnot⟩
        exact State.enterStep_control _ _ hh hr
  · exact next_request_refuse h rfl (handleTimeConfig_busy (hread hin) ⟨hpol, hold, hnew⟩)

end Sys2Proof.Machine

/-! SUPPORT. Second boundaries (01): a boundary with and without a pending TIME.SET, the end of the holdover, and a boundary
whose slot 0 was taken before it. -/

namespace Sys2Proof.Machine

section

variable {s : State}

/-! ## The users of a boundary (R2) -/

/-- The state in which a second boundary is handed to its users (R1, R2). -/
def State.boundaryStart (s : State) : State :=
  { s with
    time := { s.time with tick := 0, boundaries := s.time.boundaries + 1 }
    secondDue := false, slotDue := true, heldNotices := none }

theorem State.takeSecondBoundary_start (s : State) :
    s.takeSecondBoundary = s.boundaryStart.beginSecond.countHoldover.swapAtBoundary := rfl

theorem exec_secondBoundary (hd : s.secondDue = true) (hh : s.heldNotices = none) :
    exec .secondBoundary s = .next s.takeSecondBoundary := by
  refine congrArg Host.Outcome.next ((if_pos hd).trans ?_)
  unfold State.takeDueSecond
  rw [hh]
  rfl

theorem State.beginSecond_advance (h : s.time.pendingSet = none) :
    s.beginSecond = { s with time := { s.time with second := s.time.second + 1 } } := by
  unfold State.beginSecond
  simp only [h]

theorem State.swapAtBoundary_unarmed (h : s.assembler.armedSwap = none) : s.swapAtBoundary = s := by
  unfold State.swapAtBoundary
  rw [h]

theorem State.countHoldover_other (h : s.time.stepState ≠ .holdover) : s.countHoldover = s := by
  unfold State.countHoldover
  split
  · next hs _ => exact absurd hs h
  all_goals rfl

theorem State.countHoldover_counts {left : Nat} (h : s.time.stepState = .holdover) (hl : s.time.holdover = some left)
    (h1 : 1 < left) : s.countHoldover = { s with time := { s.time with holdover := some (left - 1) } } := by
  unfold State.countHoldover
  simp only [h, hl, if_neg (not_le.mpr h1)]

theorem State.countHoldover_ends (h : s.time.stepState = .holdover) (hl : s.time.holdover = some 1) :
    s.countHoldover = s.expireHoldover := by
  unfold State.countHoldover
  simp only [h, hl, if_pos (le_refl 1)]

/-- Under neither INSTEP nor HOLDOVER the permit condition asks for SOLO (R20). -/
theorem State.permitCondition_free (h : s.time.stepState = .free) :
    s.permitCondition = (s.site.output && !(s.site.mute && !s.feedLive) && decide (s.time.config.policy = .solo)) := by
  simp [State.permitCondition, h]

end

/-! ## A boundary without a pending TIME.SET (R1, R2, R17) -/

/-- The state in which the second that a boundary begins is counted on (R1). -/
def State.nextSecond (s : State) : State :=
  { s.boundaryStart with time := { s.boundaryStart.time with second := s.time.second + 1 } }

theorem State.takeSecondBoundary_advance {s : State} (hp : s.time.pendingSet = none) :
    s.takeSecondBoundary = s.nextSecond.countHoldover.swapAtBoundary := by
  rw [State.takeSecondBoundary_start, State.beginSecond_advance (s := s.boundaryStart) hp]
  rfl

/-- Settles O7, by what the boundary meets: another step state or a countdown that goes on, notices held back, a countdown
that ends. -/
theorem secondBoundary : Obligations.SecondBoundary := by
  unfold Obligations.SecondBoundary
  refine ⟨fun s hd hh hp ha => ⟨fun hs => ?_, fun left hs hl h1 => ?_⟩, fun s held hd hh hr => ?_,
    fun s hd hh hs hl hp ha hr => ?_⟩
  · rw [exec_secondBoundary hd hh, State.takeSecondBoundary_advance hp, State.countHoldover_other (s := s.nextSecond) hs,
      State.swapAtBoundary_unarmed (s := s.nextSecond) ha, hh]
    rfl
  · rw [exec_secondBoundary hd hh, State.takeSecondBoundary_advance hp,
      State.countHoldover_counts (s := s.nextSecond) hs hl h1, State.swapAtBoundary_unarmed, hh]
    · rfl
    · exact ha
  · refine congrArg Host.Outcome.next ((if_pos hd).trans ?_)
    unfold State.takeDueSecond State.joinHeld
    simp only [hh, Option.isSome_some, if_true, Option.getD_some]
    rw [ControlLink.enqueueAll_room held hr]
  · have hend : s.takeSecondBoundary = s.nextSecond.expireHoldover := by
      rw [State.takeSecondBoundary_advance hp, State.countHoldover_ends (s := s.nextSecond) hs hl]
      exact State.swapAtBoundary_unarmed ha
    have hexec : exec .holdoverExpired s = .next s.takeSecondBoundary := by
      refine congrArg Host.Outcome.next (if_pos ?_)
      simp [State.holdoverEnding, hd, hh, hs, hl, hp]
    have hroom : s.nextSecond.expireHoldover = _ :=
      State.enterStep_room .free .holdoverExpired
        (s := { s.nextSecond with time := { s.nextSecond.time with qualifyCount := 0, holdover := none } }) rfl hr
    refine ⟨_, hexec, exec_secondBoundary hd hh, ?_⟩
    rw [hend, hroom]
    refine ⟨rfl, rfl, ⟨_, rfl, ?_⟩, ?_, rfl, rfl, rfl, rfl⟩
    · exact congrArg (fun x => NoticeDetail.step x StepState.free StepCause.holdoverExpired 0) hs
    · show (s.output.permit && State.permitCondition _) = _
      rw [State.permitCondition_free rfl, ← Bool.and_assoc, ← Bool.and_assoc]
      rfl

end Sys2Proof.Machine

/-! SUPPORT. A second boundary at which a pending TIME.SET takes effect (R4, R5). -/

namespace Sys2Proof.Machine

section

variable {s : State} {S : Epoch}

/-! ## The pending second taken (R4) -/

/-- The state once the pending second is taken at a boundary, with its EPOCH notice and before an epoch move. -/
def State.setSecond (S : Epoch) (s : State) : State :=
  ({ s with
    time := { s.time with second := S, epochKnown := true, mismatchCount := 0, pendingSet := none }
    assembler := if s.time.epochKnown then s.assembler else s.assembler.learnEpoch (s.time.second + 1) S } : State).raise
    (.epoch .set (if s.time.epochKnown then some (s.time.second + 1) else none) S)

theorem State.beginSecond_moves (hp : s.time.pendingSet = some S) (hk : s.time.epochKnown = true)
    (hne : S ≠ s.time.second + 1) : s.beginSecond = (s.setSecond S).epochMove := by
  unfold State.beginSecond
  simp only [hp]
  exact if_pos (by simpa [hk] using hne)

theorem State.beginSecond_stays (hp : s.time.pendingSet = some S)
    (h : s.time.epochKnown = false ∨ S = s.time.second + 1) : s.beginSecond = s.setSecond S := by
  unfold State.beginSecond
  simp only [hp]
  refine if_neg ?_
  rcases h with h | h
  · simp [h]
  · simp [h]

theorem State.takeSecondBoundary_stays (hp : s.time.pendingSet = some S)
    (h : s.time.epochKnown = false ∨ S = s.time.second + 1) :
    s.takeSecondBoundary = (s.boundaryStart.setSecond S).countHoldover.swapAtBoundary := by
  rw [State.takeSecondBoundary_start, State.beginSecond_stays (s := s.boundaryStart) hp h]

/-! ## The epoch move by step state (R5) -/

theorem State.epochMove_instep (h : s.time.stepState = .instep) : s.epochMove =
    (({ s with time := { s.time with qualifyCount := 0 } } : State).enterStep .acquire .epochMoved).invalidateAnchors := by
  unfold State.epochMove
  simp only [h]

theorem State.epochMove_holdover (h : s.time.stepState = .holdover) : s.epochMove =
    (({ s with time := { s.time with qualifyCount := 0, holdover := none } } : State).enterStep .free
      .epochMoved).invalidateAnchors := by
  unfold State.epochMove
  simp only [h]

theorem State.epochMove_still (h : s.time.stepState = .free ∨ s.time.stepState = .acquire) :
    s.epochMove = s.invalidateAnchors := by
  unfold State.epochMove
  rcases h with h | h <;> simp only [h]

/-- After an epoch move the step state is not HOLDOVER. -/
theorem State.epochMove_not_holdover : s.epochMove.time.stepState ≠ .holdover := by
  cases h : s.time.stepState with
  | free =>
    rw [State.epochMove_still (Or.inl h)]
    exact h ▸ (by decide)
  | acquire =>
    rw [State.epochMove_still (Or.inr h)]
    exact h ▸ (by decide)
  | instep =>
    rw [State.epochMove_instep h]
    exact (by decide : StepState.acquire ≠ .holdover)
  | holdover =>
    rw [State.epochMove_holdover h]
    exact (by decide : StepState.free ≠ .holdover)

theorem State.takeSecondBoundary_moves (hp : s.time.pendingSet = some S) (hk : s.time.epochKnown = true)
    (hne : S ≠ s.time.second + 1) :
    s.takeSecondBoundary = (s.boundaryStart.setSecond S).epochMove.swapAtBoundary := by
  rw [State.takeSecondBoundary_start, State.beginSecond_moves (s := s.boundaryStart) hp hk hne,
    State.countHoldover_other State.epochMove_not_holdover]

/-! ## What the boundary leaves -/

theorem State.swapAtBoundary_time : s.swapAtBoundary.time = s.time := by
  obtain ⟨a, w, c, h⟩ := s.swapAtBoundary_eq
  rw [h]

theorem State.swapAtBoundary_services : s.swapAtBoundary.services = s.services := by
  obtain ⟨a, w, c, h⟩ := s.swapAtBoundary_eq
  rw [h]

/-- The epoch second that the current slot lies in once the boundary has given the epoch (log entry 27). -/
def State.slotSecondAfter (s : State) (S : Epoch) : Epoch :=
  if s.time.epochKnown then s.assembler.slotSecond else s.assembler.slotSecond + (S - (s.time.second + 1))

/-- What a boundary with a pending TIME.SET writes whatever the epoch and the step state. -/
theorem State.takeSecondBoundary_set (hp : s.time.pendingSet = some S) :
    ∃ stepState qualifyCount holdover services activeOne armedSwap control output,
      s.takeSecondBoundary = { s with
        time := { s.time with
          tick := 0, boundaries := s.time.boundaries + 1, second := S, epochKnown := true, mismatchCount := 0
          pendingSet := none, stepState := stepState, qualifyCount := qualifyCount, holdover := holdover }
        services := services
        assembler := { s.assembler with
          slotSecond := s.slotSecondAfter S, activeOne := activeOne, armedSwap := armedSwap }
        control := control
        output := output
        secondDue := false
        slotDue := true
        heldNotices := none } := by
  have hset : ∃ control, s.boundaryStart.setSecond S = { s.boundaryStart with
      time := { s.boundaryStart.time with second := S, epochKnown := true, mismatchCount := 0, pendingSet := none }
      assembler := { s.assembler with slotSecond := s.slotSecondAfter S }
      control := control } := by
    refine ⟨(s.boundaryStart.setSecond S).control, ?_⟩
    unfold State.setSecond State.slotSecondAfter
    cases hk : s.time.epochKnown <;> simp only [State.boundaryStart, hk] <;> rfl
  obtain ⟨control, hset⟩ := hset
  by_cases hmove : s.time.epochKnown = true ∧ S ≠ s.time.second + 1
  · obtain ⟨st, q, ho, c, o, held, he, hh⟩ := (s.boundaryStart.setSecond S).epochMove_eq
    obtain ⟨a, w, c', hs⟩ := (s.boundaryStart.setSecond S).epochMove.swapAtBoundary_eq
    rw [hset] at he hh
    obtain rfl := hh rfl
    rw [State.takeSecondBoundary_moves hp hmove.1 hmove.2, hs, hset, he]
    exact ⟨_, _, _, _, _, _, _, _, rfl⟩
  · have hstay : s.time.epochKnown = false ∨ S = s.time.second + 1 := by
      rw [not_and_or, Bool.not_eq_true, not_not] at hmove
      exact hmove
    obtain ⟨st, q, ho, c, o, held, he, hh⟩ := (s.boundaryStart.setSecond S).countHoldover_eq
    obtain ⟨a, w, c', hs⟩ := (s.boundaryStart.setSecond S).countHoldover.swapAtBoundary_eq
    rw [hset] at he hh
    obtain rfl := hh rfl
    rw [State.takeSecondBoundary_stays hp hstay, hs, hset, he]
    exact ⟨_, _, _, _, _, _, _, _, rfl⟩

/-- A notice created at a boundary with the epoch known bears the second's first tick. -/
theorem TimeUnit.noticeOf_boundary {t : TimeUnit} (hk : t.epochKnown = true) (ht : t.tick = 0) (d : NoticeDetail) :
    t.noticeOf d = { detail := d, created := some (t.second.toNat % 64 * 10000000, t.second) } := by
  simp [TimeUnit.noticeOf, TimeUnit.siteStamp, hk, ht, Config.ticksPerSecond]

/-- The EPOCH notice of the pending second, while the queue has room. -/
theorem State.setSecond_notices (hr : s.control.notices.length < 64) :
    (s.boundaryStart.setSecond S).control.notices = s.control.notices ++
      [{ detail := .epoch .set (if s.time.epochKnown then some (s.time.second + 1) else none) S
         created := some (S.toNat % 64 * 10000000, S) }] := by
  unfold State.setSecond
  rw [State.raise_room]
  · rw [State.noticesWith, TimeUnit.noticeOf_boundary rfl rfl]
    rfl
  · exact hr

/-- The STEP notice of a state entered at the boundary follows the EPOCH notice. -/
theorem State.enterStep_after_setSecond (u : State) (new : StepState) (cause : StepCause) (hr : s.control.notices.length < 63)
    (hu : u.control = (s.boundaryStart.setSecond S).control) (hh : u.heldNotices = none)
    (ht : ∀ d, u.time.noticeOf d = { detail := d, created := some (S.toNat % 64 * 10000000, S) }) :
    (u.enterStep new cause).control.notices = s.control.notices ++
      [{ detail := .epoch .set (if s.time.epochKnown then some (s.time.second + 1) else none) S
         created := some (S.toNat % 64 * 10000000, S) },
       { detail := .step u.time.stepState new cause 0, created := some (S.toNat % 64 * 10000000, S) }] := by
  have hn := State.setSecond_notices (S := S) (Nat.lt_succ_of_lt hr)
  rw [← hu] at hn
  rw [State.enterStep_control new cause hh (by rw [hn]; simp only [List.length_append, List.length_singleton]; omega)]
  simp only [State.noticesWith, hn, ht, List.append_assoc, List.cons_append, List.nil_append]

/-- A STEP notice at the boundary, for a state entered with nothing but the time changed since the EPOCH notice. -/
theorem State.enterStep_at_boundary {u : State} {old : StepState} (new : StepState) (cause : StepCause)
    (hr : s.control.notices.length < 63) (hu : u.control = (s.boundaryStart.setSecond S).control)
    (hh : u.heldNotices = none) (hk : u.time.epochKnown = true) (ht : u.time.tick = 0) (hS : u.time.second = S)
    (hs : u.time.stepState = old) :
    (u.enterStep new cause).control.notices = s.control.notices ++
      [{ detail := .epoch .set (if s.time.epochKnown then some (s.time.second + 1) else none) S
         created := some (S.toNat % 64 * 10000000, S) },
       { detail := .step old new cause 0, created := some (S.toNat % 64 * 10000000, S) }] := by
  rw [← hs]
  exact State.enterStep_after_setSecond u new cause hr hu hh (fun d => by rw [TimeUnit.noticeOf_boundary hk ht, hS])

end

/-- Settles O6, by whether the pending second moves a known epoch, and then by the step state. -/
theorem timeSetTakesEffect : Obligations.TimeSetTakesEffect := by
  unfold Obligations.TimeSetTakesEffect
  intro s S hd hh hp stamp
  have hstate : (s.boundaryStart.setSecond S).time.stepState = s.time.stepState := rfl
  have hhold : (s.boundaryStart.setSecond S).time.holdover = s.time.holdover := rfl
  obtain ⟨st, q, ho, sv, a, w, c, o, heq⟩ := State.takeSecondBoundary_set hp
  have htime := congrArg State.time heq
  have hpos : s.takeSecondBoundary.currentPos = some { second := s.slotSecondAfter S, slot := s.assembler.slot } := by
    rw [heq]
    rfl
  refine ⟨s.takeSecondBoundary, exec_secondBoundary hd hh, by rw [htime], by rw [htime], by rw [htime], by rw [htime],
    by rw [htime], by rw [htime], by rw [htime], by rw [heq], by rw [heq], fun hk => ?_, fun hk hslot => ?_,
    fun hk hne k e hget => ?_, fun hstay => ?_, fun hk hne => ?_, fun hstay => ?_⟩
  · rw [hpos, State.slotSecondAfter, if_pos hk]
    unfold State.currentPos
    rw [if_pos hk]
  · rw [hpos, State.slotSecondAfter, hk, hslot]
    have hsub : s.time.second + (S - (s.time.second + 1)) = S - 1 := by bv_omega
    rw [if_neg (by decide), hsub]
  · rw [State.takeSecondBoundary_moves hp hk hne, State.swapAtBoundary_services] at hget
    obtain ⟨_, _, _, _, _, _, he, _⟩ := (s.boundaryStart.setSecond S).epochMove_eq
    rw [he, Table.get_mapAll] at hget
    obtain ⟨x, _, rfl⟩ := Option.map_eq_some_iff.mp hget
    rfl
  · rw [State.takeSecondBoundary_stays hp hstay, State.swapAtBoundary_services]
    obtain ⟨_, _, _, _, _, _, he, _⟩ := (s.boundaryStart.setSecond S).countHoldover_eq
    rw [he]
    rfl
  · rw [State.takeSecondBoundary_moves hp hk hne, State.swapAtBoundary_time]
    have harmed : s.assembler.armedSwap = none → (s.boundaryStart.setSecond S).epochMove.assembler.armedSwap = none := by
      obtain ⟨_, _, _, _, _, _, he, _⟩ := (s.boundaryStart.setSecond S).epochMove_eq
      rw [he]
      exact fun ha => (congrArg Assembler.armedSwap (if_pos hk)).trans ha
    refine ⟨fun hs => ?_, fun hs => ?_, fun hs => ?_, fun ha hr => ?_⟩
    · rw [State.epochMove_instep (hstate.trans hs)]
      exact ⟨rfl, rfl⟩
    · rw [State.epochMove_holdover (hstate.trans hs)]
      exact ⟨rfl, rfl, rfl⟩
    · rw [State.epochMove_still (hstate ▸ hs)]
      exact ⟨rfl, rfl⟩
    · rw [State.swapAtBoundary_unarmed (harmed ha), List.append_assoc]
      cases hs : s.time.stepState with
      | instep =>
        rw [State.epochMove_instep (hstate.trans hs)]
        refine (State.enterStep_at_boundary .acquire .epochMoved hr rfl rfl rfl rfl rfl hs).trans ?_
        rw [if_pos hk]
        rfl
      | holdover =>
        rw [State.epochMove_holdover (hstate.trans hs)]
        refine (State.enterStep_at_boundary .free .epochMoved hr rfl rfl rfl rfl rfl hs).trans ?_
        rw [if_pos hk]
        rfl
      | free =>
        rw [State.epochMove_still (Or.inl (hstate.trans hs))]
        refine (State.setSecond_notices (Nat.lt_succ_of_lt hr)).trans ?_
        rw [if_pos hk]
        rfl
      | acquire =>
        rw [State.epochMove_still (Or.inr (hstate.trans hs))]
        refine (State.setSecond_notices (Nat.lt_succ_of_lt hr)).trans ?_
        rw [if_pos hk]
        rfl
  · rw [State.takeSecondBoundary_stays hp hstay, State.swapAtBoundary_time]
    have harmed : s.assembler.armedSwap = none →
        (s.boundaryStart.setSecond S).countHoldover.assembler.armedSwap = none := by
      obtain ⟨_, _, _, _, _, _, he, _⟩ := (s.boundaryStart.setSecond S).countHoldover_eq
      rw [he]
      intro ha
      unfold State.setSecond
      simp only [State.raise_assembler]
      split
      · exact ha
      · exact ha
    refine ⟨fun hs => ?_, fun left hs hl h1 => ?_, fun hs hl => ?_, fun ha hr => ⟨fun hc => ?_, fun hs hl => ?_⟩⟩
    · rw [State.countHoldover_other (hstate ▸ hs)]
      exact ⟨rfl, rfl⟩
    · rw [State.countHoldover_counts (hstate.trans hs) (hhold.trans hl) h1]
      exact ⟨hs, rfl⟩
    · rw [State.countHoldover_ends (hstate.trans hs) (hhold.trans hl)]
      exact ⟨rfl, rfl, rfl⟩
    · rw [State.swapAtBoundary_unarmed (harmed ha)]
      have hnotices := State.setSecond_notices (S := S) (Nat.lt_succ_of_lt hr)
      by_cases hs : s.time.stepState = .holdover
      · obtain ⟨left, hl, h1⟩ := hc.resolve_left (not_not.mpr hs)
        rw [State.countHoldover_counts (hstate.trans hs) (hhold.trans hl) h1]
        exact hnotices
      · rw [State.countHoldover_other (hstate ▸ hs)]
        exact hnotices
    · rw [State.swapAtBoundary_unarmed (harmed ha), State.countHoldover_ends (hstate.trans hs) (hhold.trans hl)]
      exact State.enterStep_at_boundary .free .holdoverExpired hr rfl rfl rfl rfl rfl hs

end Sys2Proof.Machine

/-! SUPPORT. A qualified edge within the step threshold: the loop update by step state (R9, R10, R13 to R15). -/

namespace Sys2Proof.Machine

section

variable {s : State} {c : Nat} {e : Int}

/-! ## The loop update (R9, R10) -/

/-- Site time after a loop update. -/
def TimeUnit.looped (e : Int) (t : TimeUnit) : TimeUnit :=
  { t with
    integrator := t.nextIntegrator e, steering := t.nextSteering e, sentWord := t.nextSteering e
    sentCount := t.sentCount + 1
    steerLimit := t.steerLimit || decide (t.nextSteering e ≠ divRound256 (t.config.kp * e + t.nextIntegrator e))
    intLimit := t.intLimit || decide (t.nextIntegrator e ≠ t.integrator + t.config.ki * e) }

/-- The INT_LIMIT notice of a loop update (R10). -/
def TimeUnit.intNotices (e : Int) (t : TimeUnit) : List Notice :=
  if t.nextIntegrator e ≠ t.integrator + t.config.ki * e ∧ t.intLimit = false then
    [t.noticeOf (.intLimit e (t.integrator + t.config.ki * e) (t.nextIntegrator e))] else []

/-- The STEER_LIMIT notice of a loop update (R10). -/
def TimeUnit.steerNotices (e : Int) (t : TimeUnit) : List Notice :=
  let raw := divRound256 (t.config.kp * e + t.nextIntegrator e)
  if t.nextSteering e ≠ raw ∧ t.steerLimit = false then [t.noticeOf (.steerLimit e raw (t.nextSteering e))] else []

theorem TimeUnit.intNotices_length (t : TimeUnit) : (t.intNotices e).length ≤ 1 := by
  unfold TimeUnit.intNotices
  split <;> simp

theorem TimeUnit.steerNotices_length (t : TimeUnit) : (t.steerNotices e).length ≤ 1 := by
  unfold TimeUnit.steerNotices
  simp only
  split <;> simp

theorem State.loopUpdate_time : (s.loopUpdate e).time = s.time.looped e := by
  have hi : (s.updateIntegrator e).time = { s.time with
      integrator := s.time.nextIntegrator e
      intLimit := s.time.intLimit || decide (s.time.nextIntegrator e ≠ s.time.integrator + s.time.config.ki * e) } := by
    unfold State.updateIntegrator
    simp only
    split
    · rfl
    · rfl
  unfold State.loopUpdate State.updateSteering
  simp only
  split
  · simp only [State.raiseTime_time, hi]
    rfl
  · simp only [hi]
    rfl

theorem State.loopUpdate_control (hh : s.heldNotices = none) (hr : s.control.notices.length < 63) :
    (s.loopUpdate e).heldNotices = none ∧ (s.loopUpdate e).control = { s.control with
      notices := s.control.notices ++ s.time.intNotices e ++ s.time.steerNotices e } := by
  rw [State.loopUpdate_room e hh hr]
  exact ⟨hh, rfl⟩

/-- A loop update touches site time, the notices and nothing more. -/
theorem State.loopUpdate_leaves : (s.loopUpdate e).services = s.services ∧ (s.loopUpdate e).ring = s.ring ∧
    (s.loopUpdate e).insertions = s.insertions ∧ (s.loopUpdate e).site = s.site := by
  obtain ⟨_, _, _, _, h⟩ := s.loopUpdate_eq e
  rw [h]
  exact ⟨rfl, rfl, rfl, rfl⟩

/-! ## An edge in ACQUIRE or INSTEP (R13, R14) -/

/-- The qualify count after the window test. -/
def TimeUnit.windowCount (e : Int) (t : TimeUnit) : Nat :=
  if e.natAbs ≤ t.config.window then qualifyUp t.qualifyCount else 0

/-- The qualify count of an edge in ACQUIRE reaches INSTEP (R13). -/
abbrev TimeUnit.reaches (e : Int) (t : TimeUnit) : Prop := t.config.qualify ≤ t.windowCount e ∧ t.epochKnown = true

theorem State.edgeInAcquire_reaches (h : withinThreshold e = true) (hq : s.time.reaches e) :
    s.edgeInAcquire c e = ({ s.loopUpdate e with
      time := { s.time.looped e with qualifyCount := s.time.windowCount e } } : State).enterStep .instep .qualified := by
  unfold State.edgeInAcquire
  simp only [if_pos h, State.loopUpdate_time]
  exact if_pos hq

theorem State.edgeInAcquire_stays (h : withinThreshold e = true) (hq : ¬s.time.reaches e) :
    s.edgeInAcquire c e = { s.loopUpdate e with
      time := { s.time.looped e with qualifyCount := s.time.windowCount e } } := by
  unfold State.edgeInAcquire
  simp only [if_pos h, State.loopUpdate_time]
  exact if_neg hq

theorem State.edgeInStep_within (h : withinThreshold e = true) : s.edgeInStep c e = (s.loopUpdate e).wander e :=
  if_pos h

theorem State.wander_time : (s.wander e).time = { s.time with qualifyCount := s.time.windowCount e } := by
  obtain ⟨_, _, h⟩ := s.wander_eq e
  rw [h]
  rfl

/-- The four step states fall into those that acquire and those in step. -/
theorem StepState.not_acquires_iff {x : StepState} : ¬(x = .free ∨ x = .acquire) ↔ x = .instep ∨ x = .holdover := by
  cases x <;> decide

/-! ## The step state in which the edge is handled -/

/-- FREE becomes ACQUIRE and HOLDOVER becomes INSTEP before the loop update (R13, R15). -/
def State.edgeEntry (s : State) : State :=
  match s.time.stepState with
  | .free => ({ s with time := { s.time with qualifyCount := 0 } } : State).enterStep .acquire .qualified
  | .acquire => s
  | .instep => s
  | .holdover => ({ s with time := { s.time with holdover := none } } : State).enterStep .instep .resumed

/-- The STEP notice of `State.edgeEntry` (R23). -/
def TimeUnit.entryNotices (t : TimeUnit) : List Notice :=
  match t.stepState with
  | .free => [t.noticeOf (.step .free .acquire .qualified 0)]
  | .acquire => []
  | .instep => []
  | .holdover => [t.noticeOf (.step .holdover .instep .resumed 0)]

theorem TimeUnit.entryNotices_free {t : TimeUnit} (h : t.stepState = .free) :
    t.entryNotices = [t.noticeOf (.step .free .acquire .qualified 0)] := by
  unfold TimeUnit.entryNotices
  rw [h]

theorem TimeUnit.entryNotices_holdover {t : TimeUnit} (h : t.stepState = .holdover) :
    t.entryNotices = [t.noticeOf (.step .holdover .instep .resumed 0)] := by
  unfold TimeUnit.entryNotices
  rw [h]

theorem TimeUnit.entryNotices_same {t : TimeUnit} (h : t.stepState = .acquire ∨ t.stepState = .instep) :
    t.entryNotices = [] := by
  unfold TimeUnit.entryNotices
  rcases h with h | h
  · rw [h]
  · rw [h]

theorem State.qualifiedEdge_acquires (h : s.time.stepState = .free ∨ s.time.stepState = .acquire) :
    s.qualifiedEdge c e = s.edgeEntry.edgeInAcquire c e := by
  unfold State.qualifiedEdge State.edgeEntry
  rcases h with h | h
  · rw [h]
    rfl
  · rw [h]

theorem State.qualifiedEdge_inStep (hw : withinThreshold e = true)
    (h : s.time.stepState = .instep ∨ s.time.stepState = .holdover) :
    s.qualifiedEdge c e = s.edgeEntry.edgeInStep c e := by
  unfold State.qualifiedEdge State.edgeEntry
  rcases h with h | h
  · rw [h]
  · rw [h]
    exact if_pos hw

theorem State.edgeEntry_free (h : s.time.stepState = .free) : s.edgeEntry =
    ({ s with time := { s.time with qualifyCount := 0 } } : State).enterStep .acquire .qualified := by
  unfold State.edgeEntry
  rw [h]

theorem State.edgeEntry_holdover (h : s.time.stepState = .holdover) : s.edgeEntry =
    ({ s with time := { s.time with holdover := none } } : State).enterStep .instep .resumed := by
  unfold State.edgeEntry
  rw [h]

theorem State.edgeEntry_same (h : s.time.stepState = .acquire ∨ s.time.stepState = .instep) : s.edgeEntry = s := by
  unfold State.edgeEntry
  rcases h with h | h
  · rw [h]
  · rw [h]

theorem State.edgeEntry_time : s.edgeEntry.time = { s.time with
    stepState := if s.time.stepState = .free ∨ s.time.stepState = .acquire then .acquire else .instep
    qualifyCount := if s.time.stepState = .free then 0 else s.time.qualifyCount
    holdover := if s.time.stepState = .holdover then none else s.time.holdover } := by
  cases hs : s.time.stepState with
  | free => exact congrArg State.time (State.edgeEntry_free hs)
  | holdover => exact congrArg State.time (State.edgeEntry_holdover hs)
  | acquire => rw [State.edgeEntry_same (Or.inl hs), if_pos (Or.inr rfl), if_neg (by decide), if_neg (by decide), ← hs]
  | instep => rw [State.edgeEntry_same (Or.inr hs), if_neg (by decide), if_neg (by decide), if_neg (by decide), ← hs]

/-- The step state entered first raises its notice, and may drop the permit. -/
theorem State.edgeEntry_control (hh : s.heldNotices = none) (hr : s.control.notices.length < 64) :
    s.edgeEntry.heldNotices = none ∧
      s.edgeEntry.control = { s.control with notices := s.control.notices ++ s.time.entryNotices } := by
  unfold TimeUnit.entryNotices
  cases hs : s.time.stepState with
  | free =>
    rw [State.edgeEntry_free hs,
      State.enterStep_room .acquire .qualified (s := { s with time := { s.time with qualifyCount := 0 } }) hh hr]
    refine ⟨hh, ?_⟩
    simp only [State.noticesWith, hs]
    rfl
  | holdover =>
    rw [State.edgeEntry_holdover hs,
      State.enterStep_room .instep .resumed (s := { s with time := { s.time with holdover := none } }) hh hr]
    refine ⟨hh, ?_⟩
    simp only [State.noticesWith, hs]
    rfl
  | acquire =>
    rw [State.edgeEntry_same (Or.inl hs), List.append_nil]
    exact ⟨hh, rfl⟩
  | instep =>
    rw [State.edgeEntry_same (Or.inr hs), List.append_nil]
    exact ⟨hh, rfl⟩

theorem State.edgeEntry_leaves : s.edgeEntry.services = s.services ∧ s.edgeEntry.ring = s.ring ∧
    s.edgeEntry.insertions = s.insertions ∧ s.edgeEntry.site = s.site := by
  unfold State.edgeEntry
  cases s.time.stepState with
  | free => exact ⟨rfl, rfl, rfl, rfl⟩
  | acquire => exact ⟨rfl, rfl, rfl, rfl⟩
  | instep => exact ⟨rfl, rfl, rfl, rfl⟩
  | holdover => exact ⟨rfl, rfl, rfl, rfl⟩

theorem TimeUnit.noticeOf_congr {t u : TimeUnit} (ht : t.tick = u.tick) (hs : t.second = u.second)
    (hk : t.epochKnown = u.epochKnown) (d : NoticeDetail) : t.noticeOf d = u.noticeOf d := by
  unfold TimeUnit.noticeOf TimeUnit.siteStamp
  rw [ht, hs, hk]

theorem State.noticeOf_edgeEntry (d : NoticeDetail) : s.edgeEntry.time.noticeOf d = s.time.noticeOf d := by
  rw [State.edgeEntry_time]
  rfl

/-! ## The edge handled -/

/-- The step state after an edge within the threshold (R13 to R15). -/
def State.edgeState (e : Int) (s : State) : StepState :=
  if s.time.stepState = .free ∨ s.time.stepState = .acquire then
    if s.edgeEntry.time.reaches e then .instep else .acquire
  else .instep

/-- The STEP notice that ends an edge in ACQUIRE (R13, R23). -/
def State.reachNotices (e : Int) (s : State) : List Notice :=
  if (s.time.stepState = .free ∨ s.time.stepState = .acquire) ∧ s.edgeEntry.time.reaches e then
    [s.time.noticeOf (.step .acquire .instep .qualified 0)] else []

/-- The WANDER notice of an edge in INSTEP (R14). -/
def State.wanderNotices (e : Int) (s : State) : List Notice :=
  if (s.time.stepState = .free ∨ s.time.stepState = .acquire) ∨ e.natAbs ≤ s.time.config.window then []
  else [s.time.noticeOf (.wander e)]

theorem State.qualifiedEdge_within_time (hw : withinThreshold e = true) : (s.qualifiedEdge c e).time =
    { s.edgeEntry.time.looped e with
      qualifyCount := s.edgeEntry.time.windowCount e, stepState := s.edgeState e } := by
  unfold State.edgeState
  by_cases hs : s.time.stepState = .free ∨ s.time.stepState = .acquire
  · rw [State.qualifiedEdge_acquires hs, if_pos hs]
    by_cases hq : s.edgeEntry.time.reaches e
    · rw [State.edgeInAcquire_reaches hw hq, if_pos hq]
      rfl
    · rw [State.edgeInAcquire_stays hw hq, if_neg hq, State.edgeEntry_time, if_pos hs]
      rfl
  · have hs' := StepState.not_acquires_iff.mp hs
    rw [State.qualifiedEdge_inStep hw hs', if_neg hs, State.edgeInStep_within hw, State.wander_time, State.loopUpdate_time,
      State.edgeEntry_time, if_neg hs]
    rfl

/-- An edge within the threshold touches site time, the notices and the permit, and nothing more. -/
theorem State.qualifiedEdge_within_leaves (hw : withinThreshold e = true) :
    (s.qualifiedEdge c e).services = s.services ∧ (s.qualifiedEdge c e).ring = s.ring ∧
      (s.qualifiedEdge c e).insertions = s.insertions ∧ (s.qualifiedEdge c e).site = s.site := by
  obtain ⟨hsv, hr, hi, hst⟩ := State.edgeEntry_leaves (s := s)
  obtain ⟨lsv, lr, li, lst⟩ := State.loopUpdate_leaves (s := s.edgeEntry) (e := e)
  have loop := And.intro (lsv.trans hsv) (And.intro (lr.trans hr) (And.intro (li.trans hi) (lst.trans hst)))
  by_cases hs : s.time.stepState = .free ∨ s.time.stepState = .acquire
  · rw [State.qualifiedEdge_acquires hs]
    by_cases hq : s.edgeEntry.time.reaches e
    · rw [State.edgeInAcquire_reaches hw hq]
      exact loop
    · rw [State.edgeInAcquire_stays hw hq]
      exact loop
  · have hs' := StepState.not_acquires_iff.mp hs
    obtain ⟨_, _, h⟩ := (s.edgeEntry.loopUpdate e).wander_eq e
    rw [State.qualifiedEdge_inStep hw hs', State.edgeInStep_within hw, h]
    exact loop

/-- The notices of an edge within the threshold, in the order of what it does. -/
theorem State.qualifiedEdge_within_control (hw : withinThreshold e = true) (hh : s.heldNotices = none)
    (hr : s.control.notices.length < 61) : (s.qualifiedEdge c e).control = { s.control with
      notices := s.control.notices ++ s.time.entryNotices ++ s.edgeEntry.time.intNotices e ++
        s.edgeEntry.time.steerNotices e ++ s.wanderNotices e ++ s.reachNotices e } := by
  obtain ⟨heh, hec⟩ := State.edgeEntry_control hh (Nat.lt_of_lt_of_le hr (by decide))
  have hlen : s.time.entryNotices.length ≤ 1 := by
    unfold TimeUnit.entryNotices
    split <;> simp
  have hroom : s.edgeEntry.control.notices.length < 62 := by
    rw [hec, List.length_append]
    omega
  obtain ⟨hlh, hlc⟩ := State.loopUpdate_control (e := e) heh (Nat.lt_succ_of_lt hroom)
  have hroom' : (s.edgeEntry.loopUpdate e).control.notices.length < 64 := by
    have hint := s.edgeEntry.time.intNotices_length (e := e)
    have hsteer := s.edgeEntry.time.steerNotices_length (e := e)
    rw [hlc]
    simp only [List.length_append]
    omega
  unfold State.wanderNotices State.reachNotices
  by_cases hs : s.time.stepState = .free ∨ s.time.stepState = .acquire
  · rw [State.qualifiedEdge_acquires hs, if_pos (Or.inl hs), List.append_nil]
    by_cases hq : s.edgeEntry.time.reaches e
    · rw [State.edgeInAcquire_reaches hw hq, if_pos ⟨hs, hq⟩, State.enterStep_control]
      · simp only [State.noticesWith, hlc, hec]
        rw [show (s.edgeEntry.time.looped e).stepState = .acquire by
          rw [State.edgeEntry_time, if_pos hs]; rfl, ← State.noticeOf_edgeEntry]
        rfl
      · exact hlh
      · exact hroom'
    · rw [State.edgeInAcquire_stays hw hq, if_neg (fun h => hq h.2), List.append_nil]
      exact hlc.trans (by rw [hec])
  · have hs' := StepState.not_acquires_iff.mp hs
    rw [State.qualifiedEdge_inStep hw hs', State.edgeInStep_within hw, State.wander_room e hlh hroom']
    simp only [hs, false_or, false_and, if_false, List.append_nil, hlc, hec]
    have hwin : (s.edgeEntry.loopUpdate e).time.config = s.time.config := by
      rw [State.loopUpdate_time, State.edgeEntry_time]
      rfl
    have hn : (s.edgeEntry.loopUpdate e).time.noticeOf (.wander e) = s.time.noticeOf (.wander e) := by
      rw [State.loopUpdate_time, ← State.noticeOf_edgeEntry]
      rfl
    rw [hwin, hn]

end

/-- Settles O9: the step state entered first, the loop update, and then the window test or the qualify count. -/
theorem loopUpdate : Obligations.LoopUpdate := by
  unfold Obligations.LoopUpdate
  intro edge s e hsrc hedge href hlo hhi he hsmall
  have hw : withinThreshold e = true := decide_eq_true hsmall
  obtain rfl : e = phaseError s.time.tick := he
  generalize hE : phaseError s.time.tick = e at *
  obtain ⟨u, hu⟩ : ∃ u, u = s.newReference s.time.tick e (some s.time.interval) := ⟨_, rfl⟩
  have hexec : exec (.ppsEdge edge) s = .next (u.qualifiedEdge s.time.tick e) := by
    rw [exec_ppsEdge_captured hsrc hedge, State.captureEdge_qualified href hlo hhi, hE, hu]
  have htime := State.qualifiedEdge_within_time (s := u) (c := s.time.tick) hw
  obtain ⟨hsv, hring, hins, hsite⟩ := State.qualifiedEdge_within_leaves (s := u) (c := s.time.tick) hw
  have hentry := State.edgeEntry_time (s := u)
  have hctl := State.qualifiedEdge_within_control (s := u) (c := s.time.tick) hw
  have hstate : (u.qualifiedEdge s.time.tick e).time.stepState = u.edgeState e := congrArg TimeUnit.stepState htime
  rw [hentry] at htime
  have hint' : u.edgeEntry.time.intNotices e = s.time.intNotices e := by rw [hentry, hu]; rfl
  have hsteer' : u.edgeEntry.time.steerNotices e = s.time.steerNotices e := by rw [hentry, hu]; rfl
  subst hu
  refine ⟨_, divRound256 (s.time.config.kp * e + s.time.nextIntegrator e), hexec, ?_⟩
  generalize State.qualifiedEdge s.time.tick e _ = t at htime hstate hsv hring hins hsite hctl
  have hint : t.time.integrator = s.time.nextIntegrator e := by rw [htime]; rfl
  have hsteer : t.time.steering = s.time.nextSteering e := by rw [htime]; rfl
  have hacquires : s.time.stepState = .free ∨ s.time.stepState = .acquire → t.time.stepState =
      if s.time.config.qualify ≤ t.time.qualifyCount ∧ s.time.epochKnown = true then .instep else .acquire := by
    intro hs
    refine hstate.trans ((if_pos hs).trans ?_)
    rw [hentry, htime]
    rfl
  refine ⟨hint.trans (clamp_eq _ (by decide)), ?_, ?_, hsteer.trans (clamp_eq _ (by decide)), ?_, ?_, ?_, ?_, ?_, ?_, ?_, ?_,
    ?_, ?_, ?_, ?_, fun hs => hstate.trans (if_neg ?_), hacquires, ?_, hsv, hring, hins, hsite, ?_, ?_, fun hh hr => ?_⟩
  · rw [hint]
    exact (divRound256_spec _).1
  · rw [hint]
    exact (divRound256_spec _).2
  · rw [htime]; rfl
  · rw [htime]; rfl
  · rw [htime]; rfl
  · rw [htime]; rfl
  · rw [htime]; rfl
  · rw [htime]; rfl
  · rw [htime]; rfl
  · rw [htime]; rfl
  · rw [htime]; rfl
  · rw [htime]; rfl
  · rw [htime]; rfl
  · rw [htime]; rfl
  · exact StepState.not_acquires_iff.mpr hs
  · rw [htime]; rfl
  · rw [hint, htime]; rfl
  · rw [hsteer, htime]; rfl
  · refine ⟨_, _, _, _, _, hctl hh hr, fun hs => ?_, fun hs => ?_, fun hs => ?_, fun h0 h1 => ?_, fun h => ?_,
      fun h0 h1 => ?_, fun h => ?_, fun hs h => ?_, fun h => ?_, fun hs h => ?_, fun h => ?_⟩
    · exact TimeUnit.entryNotices_free hs
    · exact TimeUnit.entryNotices_holdover hs
    · exact TimeUnit.entryNotices_same hs
    · rw [hint']
      rw [hint] at h1 ⊢
      exact if_pos ⟨h1, h0⟩
    · rw [hint']
      rw [hint] at h
      refine if_neg ?_
      rintro ⟨h1, h0⟩
      rcases h with h | h
      · rw [h0] at h
        cases h
      · exact h1 h
    · rw [hsteer']
      rw [hsteer] at h1 ⊢
      exact if_pos ⟨h1, h0⟩
    · rw [hsteer']
      rw [hsteer] at h
      refine if_neg ?_
      rintro ⟨h1, h0⟩
      rcases h with h | h
      · rw [h0] at h
        cases h
      · exact h1 h
    · refine if_neg ?_
      rintro (ha | hle)
      · exact StepState.not_acquires_iff.mpr hs ha
      · exact absurd hle (Nat.not_le_of_lt h)
    · exact if_pos (h.imp_left fun hn => not_not.mp (mt StepState.not_acquires_iff.mp hn))
    · have ha := not_not.mp (mt StepState.not_acquires_iff.mp hs)
      refine if_pos ⟨ha, ?_⟩
      by_contra hq
      rw [hstate.trans ((if_pos ha).trans (if_neg hq))] at h
      cases h
    · refine if_neg ?_
      rintro ⟨ha, hq⟩
      rcases h with h | h
      · exact StepState.not_acquires_iff.mpr h ha
      · rw [hstate.trans ((if_pos ha).trans (if_pos hq))] at h
        cases h

end Sys2Proof.Machine

/-! SUPPORT. Counts on carried streams (R45) and the slots a phase step skips (R88). -/

namespace Sys2Proof.Machine

/-! ## Entries of a table kept by their index -/

section

variable {α : Type}

theorem Table.get_keep_index (p : Nat → Bool) (t : Table α) (k : Nat) :
    (t.keep (fun i _ => p i)).get k = if p k then t.get k else none := by
  induction t with
  | nil => simp [Table.keep]
  | cons x rest ih =>
    unfold Table.keep at ih ⊢
    by_cases hk : k = x.1
    · subst hk
      by_cases hp : p x.1 = true
      · simp [hp, Table.get]
      · simp only [List.filter_cons, hp, Bool.false_eq_true, if_false] at ih ⊢
        exact ih
    · by_cases hp : p x.1 = true
      · simp only [List.filter_cons, hp, if_true, Table.get, if_neg hk]
        exact ih
      · simp only [List.filter_cons, hp, Bool.false_eq_true, if_false, Table.get, if_neg hk]
        exact ih

end

/-! ## Counts on carried streams (R45) -/

/-- A count made on a carried stream reaches the entry it names, where that still holds what the cell was looked up with. -/
theorem get_countStream (streams : Table StreamEntry) (index origin label : Nat) (cls : StreamClass)
    (f : StreamCounts → StreamCounts) (k : Nat) :
    (countStream streams index origin label cls f).get k = (streams.get k).map (fun x =>
      if index = k ∧ x.origin = origin ∧ x.label = label ∧ x.cls = cls then { x with counts := f x.counts } else x) := by
  unfold countStream
  by_cases hk : index = k
  · subst hk
    cases hget : streams.get index with
    | none => simp [hget]
    | some e =>
      by_cases hm : e.origin = origin ∧ e.label = label ∧ e.cls = cls
      · simp [hm]
      · simp only [if_neg hm, hget, Option.map_some, true_and]
  · have hsame : ∀ o : Option StreamEntry, o.map (fun x =>
        if index = k ∧ x.origin = origin ∧ x.label = label ∧ x.cls = cls then { x with counts := f x.counts } else x) = o := by
      intro o
      cases o with
      | none => rfl
      | some x => simp [hk]
    rw [hsame]
    split
    · split
      · exact Table.get_put_other _ _ (Ne.symm hk)
      · rfl
    · rfl

/-- The late count raised `n` times, holding at the highest number. -/
def StreamCounts.lateBy (n : Nat) (c : StreamCounts) : StreamCounts :=
  { c with late := if n = 0 then c.late else min (c.late + n) 4294967295 }

theorem StreamCounts.lateBy_zero (c : StreamCounts) : c.lateBy 0 = c := rfl

theorem StreamCounts.lateBy_bumpLate (n : Nat) (c : StreamCounts) : c.bumpLate.lateBy n = c.lateBy (n + 1) := by
  unfold StreamCounts.lateBy StreamCounts.bumpLate
  rw [bump_eq, if_neg (Nat.succ_ne_zero n)]
  congr 1
  simp only
  split
  · next h => rw [h]
  · omega

/-- A ring entry carries stream `k` as the entry `x` holds it. -/
def RingEntry.carries (k : Nat) (x : StreamEntry) (e : RingEntry) : Bool :=
  decide (e.stream = k) && decide (e.origin = x.origin) && decide (cellLabel e.cell = x.label) && decide (e.cls = x.cls)

theorem RingEntry.carries_iff {k : Nat} {x : StreamEntry} {e : RingEntry} : e.carries k x = true ↔
    e.stream = k ∧ x.origin = e.origin ∧ x.label = cellLabel e.cell ∧ x.cls = e.cls := by
  unfold RingEntry.carries
  simp only [Bool.and_eq_true, decide_eq_true_eq, and_assoc]
  rw [eq_comm (a := e.origin), eq_comm (a := cellLabel e.cell), eq_comm (a := e.cls)]

/-- One late cell is counted on the stream of each entry (R87, R88). -/
theorem get_countLateEntries (entries : Table RingEntry) (streams : Table StreamEntry) (k : Nat) :
    (countLateEntries entries streams).get k = (streams.get k).map (fun x =>
      { x with counts := x.counts.lateBy (entries.countP (fun p => p.2.carries k x)) }) := by
  induction entries generalizing streams with
  | nil =>
    simp [countLateEntries, StreamCounts.lateBy_zero]
  | cons p rest ih =>
    have hstep : countLateEntries (p :: rest) streams = countLateEntries rest
      (countStream streams p.2.stream p.2.origin (cellLabel p.2.cell) p.2.cls StreamCounts.bumpLate) := rfl
    rw [hstep, ih, get_countStream, Option.map_map]
    congr 1
    funext x
    by_cases hc : p.2.carries k x = true
    · have hcount : List.countP (fun p => p.2.carries k x) (p :: rest) = List.countP (fun p => p.2.carries k x) rest + 1 :=
        List.countP_cons_of_pos hc
      rw [Function.comp_apply, if_pos (RingEntry.carries_iff.mp hc), hcount, ← StreamCounts.lateBy_bumpLate]
      rfl
    · have hcount : List.countP (fun p => p.2.carries k x) (p :: rest) = List.countP (fun p => p.2.carries k x) rest :=
        List.countP_cons_of_neg hc
      rw [Function.comp_apply, if_neg (mt RingEntry.carries_iff.mpr hc), hcount]

/-! ## The slots skipped (R88) -/

/-- A ring entry belongs to a skipped slot where one of the slots' numbers falls on it. -/
theorem slotSkipped_iff {base from0 slots i : Nat} (hi : i < 65536) :
    slotSkipped (base + from0) (slots - from0) i = true ↔ ∃ j, j < slots ∧ from0 ≤ j ∧ (base + j) % 65536 = i := by
  unfold slotSkipped
  rw [decide_eq_true_eq]
  simp only [Config.ringSize]
  constructor
  · intro h
    exact ⟨from0 + (i + 65536 - (base + from0) % 65536) % 65536, by omega, by omega, by omega⟩
  · rintro ⟨j, hj, hf, rfl⟩
    omega

section

variable {s : State} {old : StepState} {c : Nat} {e : Int}

/-- The skipped slots' numbers as the ring's positions. -/
def State.skips (s : State) (c i : Nat) : Bool :=
  slotSkipped (s.time.second.toNat % 64 * s.n + (c + s.site.period - 1) / s.site.period)
    (s.n - (c + s.site.period - 1) / s.site.period) i

theorem State.skipSlots_unknown (h : s.time.epochKnown = false) : s.skipSlots c = s := by
  unfold State.skipSlots
  rw [h]
  rfl

theorem State.skipSlots_known (h : s.time.epochKnown = true) : s.skipSlots c = { s with
    streams := countLateEntries (s.ring.keep (fun i _ => s.skips c i)) s.streams
    ring := s.ring.keep (fun i _ => !s.skips c i) } := by
  unfold State.skipSlots
  exact if_pos h

/-- The slots of the ending second from tick count `c` on, as a search over the second's slots. -/
def State.slotsSkipped (s : State) (c i : Nat) : Bool :=
  let slots := 10000000 / s.site.period
  (List.range slots).any (fun j => decide ((c + s.site.period - 1) / s.site.period ≤ j) &&
    decide ((s.time.second.toNat % 64 * slots + j) % 65536 = i))

theorem State.skips_eq {i : Nat} (hi : i < 65536) : s.skips c i = s.slotsSkipped c i := by
  rw [Bool.eq_iff_iff]
  refine (slotSkipped_iff hi).trans ?_
  simp only [State.slotsSkipped, List.any_eq_true, List.mem_range, Bool.and_eq_true, decide_eq_true_eq]
  rfl

theorem State.ringTagged_lt (ht : s.ringTagged) {p : Nat × RingEntry} (hp : p ∈ s.ring) : p.1 < 65536 := by
  have h := ht p hp
  omega

theorem State.skipSlots_ring (h : s.time.epochKnown = true) (ht : s.ringTagged) (i : Nat) :
    (s.skipSlots c).ring.get i = if s.slotsSkipped c i then none else s.ring.get i := by
  rw [State.skipSlots_known h]
  show (s.ring.keep (fun i _ => !s.skips c i)).get i = _
  rw [Table.get_keep_index (fun i => !s.skips c i)]
  by_cases hi : i < 65536
  · rw [State.skips_eq hi]
    cases s.slotsSkipped c i <;> rfl
  · have hnone : s.ring.get i = none := Table.get_of_forall_ne fun p hp hpi => hi (hpi ▸ s.ringTagged_lt ht hp)
    rw [hnone, ite_self, ite_self]

/-- The ring entries skipped that carry stream `k` as `x` holds it. -/
def State.skippedCarrying (s : State) (c k : Nat) (x : StreamEntry) : Nat :=
  s.ring.countP (fun p => s.slotsSkipped c p.1 && decide (p.2.stream = k) && decide (p.2.origin = x.origin) &&
    decide (cellLabel p.2.cell = x.label) && decide (p.2.cls = x.cls))

theorem State.skipSlots_streams (h : s.time.epochKnown = true) (ht : s.ringTagged) (k : Nat) :
    (s.skipSlots c).streams.get k =
      (s.streams.get k).map (fun x => { x with counts := x.counts.lateBy (s.skippedCarrying c k x) }) := by
  rw [State.skipSlots_known h]
  refine (get_countLateEntries _ _ k).trans ?_
  congr 1
  funext x
  have hcount : (s.ring.keep (fun i _ => s.skips c i)).countP (fun p => p.2.carries k x) = s.skippedCarrying c k x := by
    refine List.countP_filter.trans (List.countP_congr fun p hp => ?_)
    have hskip : s.skips c p.1 = s.slotsSkipped c p.1 := State.skips_eq (s.ringTagged_lt ht hp)
    simp only [hskip]
    unfold RingEntry.carries
    rw [Bool.and_comm]
    simp only [Bool.and_assoc]
  rw [hcount]

theorem State.skipSlots_eq (c : Nat) (s : State) : ∃ streams ring, s.skipSlots c = { s with streams := streams, ring := ring } := by
  cases h : s.time.epochKnown with
  | false => exact ⟨_, _, State.skipSlots_unknown h⟩
  | true => exact ⟨_, _, State.skipSlots_known h⟩

/-! ## A phase step (R12) -/

/-- A phase step up to its new second: the notice, the step state and the count. -/
def State.stepped (old : StepState) (e : Int) (s : State) : State :=
  { s.raiseTime (.step old .acquire .phaseStep e) with time := { s.time with
    stepState := .acquire, holdover := none, qualifyCount := 0, phaseCount := bump s.time.phaseCount } }

/-- A second begun anew by a phase step with a positive error (R12). -/
def State.sameSecond (s : State) : State :=
  { s with time := { s.time with tick := 0 }, secondDue := false, slotDue := true, heldNotices := none }

theorem State.phaseStep_negative (he : e < 0) : s.phaseStep old c e =
    ((s.stepped old e).skipSlots c).takeSecondBoundary.invalidateAnchors.dropPermit := by
  unfold State.phaseStep
  simp only [if_pos he]
  rfl

theorem State.phaseStep_positive (he : 0 < e) : s.phaseStep old c e =
    (s.stepped old e).sameSecond.invalidateAnchors.dropPermit := by
  unfold State.phaseStep
  simp only [if_neg (not_lt.mpr he.le)]
  rfl

/-- FREE becomes ACQUIRE before the phase step (R13). -/
def State.stepEntry (s : State) : State :=
  if s.time.stepState = .free then
    ({ s with time := { s.time with qualifyCount := 0 } } : State).enterStep .acquire .qualified
  else s

/-- The step state that a phase step leaves. -/
def StepState.steppedFrom (x : StepState) : StepState := if x = .free then .acquire else x

theorem State.qualifiedEdge_beyond (h : withinThreshold e = false) :
    s.qualifiedEdge c e = s.stepEntry.phaseStep s.time.stepState.steppedFrom c e := by
  have hw : ¬withinThreshold e = true := ne_true_of_eq_false h
  unfold State.qualifiedEdge State.stepEntry StepState.steppedFrom
  cases s.time.stepState with
  | free => exact if_neg hw
  | acquire => exact if_neg hw
  | instep => exact if_neg hw
  | holdover => exact if_neg hw

/-- The STEP notices of a phase step (R23). -/
def TimeUnit.stepNotices (e : Int) (t : TimeUnit) : List Notice :=
  if t.stepState = .free then
    [t.noticeOf (.step .free .acquire .qualified 0), t.noticeOf (.step .acquire .acquire .phaseStep e)]
  else [t.noticeOf (.step t.stepState .acquire .phaseStep e)]

theorem State.stepped_notices (hh : s.heldNotices = none) (hr : s.control.notices.length < 64) :
    (s.stepped old e).control.notices = s.control.notices ++ [s.time.noticeOf (.step old .acquire .phaseStep e)] := by
  unfold State.stepped
  rw [State.raiseTime_none _ hh, State.raise_room _ hr]
  rfl

theorem State.stepEntry_notices (hs : s.time.stepState = .free) (hh : s.heldNotices = none)
    (hr : s.control.notices.length < 64) : s.stepEntry.heldNotices = none ∧
      s.stepEntry.control.notices = s.control.notices ++ [s.time.noticeOf (.step .free .acquire .qualified 0)] := by
  unfold State.stepEntry
  rw [if_pos hs,
    State.enterStep_room .acquire .qualified (s := { s with time := { s.time with qualifyCount := 0 } }) hh hr]
  refine ⟨hh, ?_⟩
  simp only [State.noticesWith, hs]
  rfl

theorem State.stepEntry_other (hs : s.time.stepState ≠ .free) : s.stepEntry = s := if_neg hs

theorem TimeUnit.stepNotices_free {t : TimeUnit} (h : t.stepState = .free) : t.stepNotices e =
    [t.noticeOf (.step .free .acquire .qualified 0), t.noticeOf (.step .acquire .acquire .phaseStep e)] := if_pos h

theorem TimeUnit.stepNotices_other {t : TimeUnit} (h : t.stepState ≠ .free) :
    t.stepNotices e = [t.noticeOf (.step t.stepState .acquire .phaseStep e)] := if_neg h

/-- What a phase step has written before its new second. -/
theorem State.stepped_stepEntry (e : Int) (s : State) : ∃ control output held,
    s.stepEntry.stepped s.time.stepState.steppedFrom e = { s with
      time := { s.time with
        stepState := .acquire, holdover := none, qualifyCount := 0, phaseCount := bump s.time.phaseCount }
      control := control
      output := output
      heldNotices := held } ∧
    (s.heldNotices = none → s.control.notices.length < 62 →
      control.notices = s.control.notices ++ s.time.stepNotices e) := by
  unfold TimeUnit.stepNotices StepState.steppedFrom
  by_cases hs : s.time.stepState = .free
  · rw [if_pos hs, if_pos hs]
    have hentry : s.stepEntry =
        ({ s with time := { s.time with qualifyCount := 0 } } : State).enterStep .acquire .qualified := if_pos hs
    have htime (d : NoticeDetail) : s.stepEntry.time.noticeOf d = s.time.noticeOf d := by
      rw [hentry]
      rfl
    refine ⟨(s.stepEntry.stepped .acquire e).control, s.stepEntry.output, s.stepEntry.joinHeld.heldNotices, ?_,
      fun hh hr => ?_⟩
    · rw [hentry]
      rfl
    · obtain ⟨hheld, hn⟩ := State.stepEntry_notices hs hh (Nat.lt_of_lt_of_le hr (by decide))
      rw [State.stepped_notices hheld, hn, htime, List.append_assoc]
      · rfl
      · rw [hn, List.length_append, List.length_singleton]
        omega
  · rw [if_neg hs, if_neg hs, State.stepEntry_other hs]
    exact ⟨_, _, _, rfl, fun hh hr => State.stepped_notices hh (Nat.lt_of_lt_of_le hr (by decide))⟩

/-! ## The notices of a boundary in ACQUIRE -/

theorem State.raise_appends (d : NoticeDetail) (s : State) :
    ∃ more, (s.raise d).control.notices = s.control.notices ++ more := by
  rcases Nat.lt_or_ge s.control.notices.length 64 with hr | hr
  · rw [State.raise_room d hr]
    exact ⟨_, rfl⟩
  · rw [State.raise_full d hr]
    exact ⟨[], (List.append_nil _).symm⟩

theorem State.epochMove_acquire_control (h : s.time.stepState = .acquire) : s.epochMove.control = s.control := by
  rw [State.epochMove_still (Or.inr h)]
  rfl

theorem State.beginSecond_appends (h : s.time.stepState = .acquire) :
    s.beginSecond.time.stepState = .acquire ∧ ∃ more, s.beginSecond.control.notices = s.control.notices ++ more := by
  cases hp : s.time.pendingSet with
  | none =>
    rw [State.beginSecond_advance hp]
    exact ⟨h, [], (List.append_nil _).symm⟩
  | some S =>
    have hset : ∃ more, (s.setSecond S).control.notices = s.control.notices ++ more := State.raise_appends _ _
    by_cases hm : s.time.epochKnown = true ∧ S ≠ s.time.second + 1
    · rw [State.beginSecond_moves hp hm.1 hm.2, State.epochMove_acquire_control (s := s.setSecond S) h,
        State.epochMove_still (s := s.setSecond S) (Or.inr h)]
      exact ⟨h, hset⟩
    · rw [not_and_or, Bool.not_eq_true, not_not] at hm
      rw [State.beginSecond_stays hp hm]
      exact ⟨h, hset⟩

theorem State.swapAtBoundary_appends (s : State) :
    ∃ more, s.swapAtBoundary.control.notices = s.control.notices ++ more := by
  unfold State.swapAtBoundary
  split
  · exact ⟨[], (List.append_nil _).symm⟩
  · simp only
    split
    · exact ⟨[], (List.append_nil _).symm⟩
    · exact State.raise_appends _ _

theorem State.takeSecondBoundary_appends (h : s.time.stepState = .acquire) :
    ∃ more, s.takeSecondBoundary.control.notices = s.control.notices ++ more := by
  obtain ⟨hs, more, hm⟩ := State.beginSecond_appends (s := s.boundaryStart) h
  obtain ⟨more', hm'⟩ := s.boundaryStart.beginSecond.swapAtBoundary_appends
  rw [State.takeSecondBoundary_start, State.countHoldover_other (fun hn => by rw [hs] at hn; cases hn), hm', hm]
  exact ⟨more ++ more', List.append_assoc _ _ _⟩

theorem State.takeSecondBoundary_silent (h : s.time.stepState = .acquire) (hp : s.time.pendingSet = none)
    (ha : s.assembler.armedSwap = none) : s.takeSecondBoundary.control = s.control := by
  rw [State.takeSecondBoundary_advance hp, State.countHoldover_other (s := s.nextSecond) (fun hn => by
    rw [show s.nextSecond.time.stepState = .acquire from h] at hn; cases hn),
    State.swapAtBoundary_unarmed (s := s.nextSecond) ha]
  rfl

theorem State.takeSecondBoundary_second (s : State) :
    s.takeSecondBoundary.time.second = s.time.pendingSet.getD (s.time.second + 1) := by
  obtain ⟨_, _, _, _, _, _, _, _, _, _, _, h, _⟩ := s.takeSecondBoundary_eq
  rw [h]

end

theorem State.anchor_invalidateAnchors (s : State) (k : Nat) (x : ServiceEntry)
    (h : s.invalidateAnchors.services.get k = some x) : x.anchor = none := by
  have hget : s.invalidateAnchors.services.get k = (s.services.get k).map (fun e => { e with anchor := none }) :=
    Table.get_mapAll s.services (fun e => { e with anchor := none }) k
  rw [hget] at h
  obtain ⟨y, _, rfl⟩ := Option.map_eq_some_iff.mp h
  rfl

/-- Settles O10, by the sign of the phase error: a negative one skips slots and makes a second boundary, a positive one
begins the second anew. -/
theorem phaseStep : Obligations.PhaseStep := by
  unfold Obligations.PhaseStep
  intro edge s e hsrc hedge href hlo hhi he hbig
  have hw : withinThreshold e = false := decide_eq_false (not_le.mpr hbig)
  obtain rfl : e = phaseError s.time.tick := he
  generalize hE : phaseError s.time.tick = e at *
  obtain ⟨u, hu⟩ : ∃ u, u = s.newReference s.time.tick e (some s.time.interval) := ⟨_, rfl⟩
  have hexec : exec (.ppsEdge edge) s = .next (u.stepEntry.phaseStep u.time.stepState.steppedFrom s.time.tick e) := by
    rw [exec_ppsEdge_captured hsrc hedge, State.captureEdge_qualified href hlo hhi, hE, ← hu,
      State.qualifiedEdge_beyond hw]
  obtain ⟨control, output, held, hv, hn⟩ := State.stepped_stepEntry e u
  subst hu
  refine ⟨_, hexec, ?_⟩
  rcases lt_or_gt_of_ne (show e ≠ 0 by rintro rfl; simp at hbig) with hneg | hpos
  · have hnotices := fun hh hr => (congrArg (fun v : State => v.control.notices) hv).trans (hn hh hr)
    generalize hveq : State.stepped _ e _ = v at hv hnotices
    obtain ⟨streams, ring, hskip⟩ := State.skipSlots_eq s.time.tick v
    have hacq : (v.skipSlots s.time.tick).time.stepState = .acquire := by rw [hskip, hv]
    obtain ⟨hst, hqc, hho⟩ := State.takeSecondBoundary_acquire hacq
    have happend := State.takeSecondBoundary_appends hacq
    have hsilent := State.takeSecondBoundary_silent hacq
    obtain ⟨kn, mm, st, q, ho, sv, sec, a, w, c, o, heq, _⟩ := (v.skipSlots s.time.tick).takeSecondBoundary_eq
    have hring := State.skipSlots_ring (s := v) (c := s.time.tick)
    have hstreams := State.skipSlots_streams (s := v) (c := s.time.tick)
    have hunknown := State.skipSlots_unknown (s := v) (c := s.time.tick)
    rw [State.phaseStep_negative hneg, hveq]
    generalize hw : v.skipSlots s.time.tick = w at *
    generalize w.takeSecondBoundary = t at *
    have htime := congrArg State.time heq
    have hvtime := congrArg State.time hv
    have hwtime : w.time = v.time := by rw [hskip]
    rw [hwtime, hvtime] at htime
    refine ⟨(congrArg TimeUnit.tick htime :), ?_, ?_, (congrArg TimeUnit.integrator htime :), (congrArg TimeUnit.steering htime :),
      (congrArg TimeUnit.sentCount htime :), ?_, ?_, (congrArg TimeUnit.phaseCount htime :), hst, (congrArg TimeUnit.refEdge htime :),
      (congrArg TimeUnit.interval htime :), (congrArg TimeUnit.refTimer htime :), (congrArg TimeUnit.refExpired htime :),
      (congrArg TimeUnit.lastC htime :), (congrArg TimeUnit.lastE htime :), (congrArg TimeUnit.lastInterval htime :),
      State.anchor_invalidateAnchors _, congrArg State.slotDue heq, fun h => absurd h hneg.not_gt, fun _ hk => ?_,
      fun _ hk ht => ?_, ?_, ?_, fun hh hr => ?_⟩
    · rw [if_pos hneg]
      exact congrArg TimeUnit.second htime
    · rw [if_pos hneg]
      exact congrArg TimeUnit.pendingSet htime
    · refine hqc.trans ?_
      rw [hwtime, hvtime]
    · refine hho.trans ?_
      rw [hwtime, hvtime]
    · have hkv : v.time.epochKnown = false := by rw [hvtime]; exact hk
      rw [heq, hunknown hkv, hv]
      exact ⟨rfl, rfl⟩
    · have hkv : v.time.epochKnown = true := by rw [hvtime]; exact hk
      have htv : v.ringTagged := by rw [hv]; exact ht
      have hr := hring hkv htv
      have hs := hstreams hkv htv
      rw [hv] at hr hs
      refine ⟨fun i => ?_, fun k => ?_⟩
      · rw [heq]
        exact hr i
      · rw [heq]
        exact hs k
    · rw [heq, hskip, hv]; rfl
    · rw [heq, hskip, hv]; rfl
    · have hbase : w.control.notices = s.control.notices ++ s.time.stepNotices e := by
        rw [hskip]
        exact hnotices hh hr
      have hmore : ∃ more, t.control.notices = w.control.notices ++ more ∧
          (s.time.pendingSet = none ∧ s.assembler.armedSwap = none → more = []) := by
        by_cases hquiet : s.time.pendingSet = none ∧ s.assembler.armedSwap = none
        · have hc := hsilent (by rw [hwtime, hvtime]; exact hquiet.1) (by rw [hskip, hv]; exact hquiet.2)
          exact ⟨[], by rw [hc, List.append_nil], fun _ => rfl⟩
        · obtain ⟨more, hm⟩ := happend
          exact ⟨more, hm, fun h => absurd h hquiet⟩
      obtain ⟨more, hm, hquiet⟩ := hmore
      rw [hbase] at hm
      refine ⟨more, fun hs => ?_, fun hs => ?_, fun h => hquiet (h.resolve_left hneg.not_gt)⟩
      · rw [← TimeUnit.stepNotices_free hs]
        exact hm
      · rw [← TimeUnit.stepNotices_other hs]
        exact hm
  · rw [State.phaseStep_positive hpos, hv]
    refine ⟨rfl, (if_neg hpos.not_gt).symm, (if_neg hpos.not_gt).symm, rfl, rfl, rfl, rfl, rfl, rfl, rfl, rfl, rfl, rfl, rfl,
      rfl, rfl, rfl, State.anchor_invalidateAnchors _, rfl, fun _ => ⟨rfl, rfl, rfl⟩, fun h => absurd h hpos.not_gt,
      fun h => absurd h hpos.not_gt, rfl, rfl, fun hh hr => ⟨[], fun hs => ?_, fun hs => ?_, fun _ => rfl⟩⟩
    · rw [List.append_nil, ← TimeUnit.stepNotices_free hs]
      exact hn hh hr
    · rw [List.append_nil, ← TimeUnit.stepNotices_other hs]
      exact hn hh hr

end Sys2Proof.Machine

/-! SUPPORT. A complete cell on a link and the state of the link (R28, R30 to R35). -/

namespace Sys2Proof.Machine

section

variable {l : Link} {b : Byte} {bytes taken : Bytes} {s : State}

/-! ## A complete cell (R28, R30 to R32) -/

/-- A receiver once it has taken the byte that completes a cell. -/
def LinkState.completed (k : LinkState) : LinkState :=
  { k with delineation := .trailing false, counts := { k.counts with cells := bump k.counts.cells } }

theorem State.takeData_completes (h : (s.link l).delineation = .assembling taken) (hlen : taken.length = 199) :
    s.takeData l b = (s.setDelineation l (.trailing false)).completeCell l (taken ++ [b]) := by
  unfold State.takeData
  rw [h]
  refine if_neg ?_
  omega

theorem exec_cellArrival_completes (h : (s.link l).delineation = .assembling taken) (hlen : taken.length = 199) :
    exec (.cellArrival l b) s = .next ((s.setDelineation l (.trailing false)).completeCell l (taken ++ [b])) := by
  rw [← State.takeData_completes h hlen]
  refine congrArg Host.Outcome.next (if_pos ?_)
  unfold LinkState.lastByteDue
  rw [h]
  exact decide_eq_true (by omega)

/-- The cell is counted in the same change that ends the assembly. -/
theorem State.countLink_setDelineation (s : State) (l : Link) :
    (s.setDelineation l (.trailing false)).countLink l (fun k => { k with cells := bump k.cells }) =
      s.setLink l (s.link l).completed := by
  simp only [State.setDelineation, State.countLink, State.link_setLink_same, State.setLink_setLink, LinkState.completed]

theorem State.completeCell_crc (h : (crc32 (crcCover bytes)).toNat ≠ fieldNat bytes 12 4) :
    (s.setDelineation l (.trailing false)).completeCell l bytes = s.setLink l { (s.link l).completed with
      counts := { (s.link l).completed.counts with crcErrors := bump (s.link l).counts.crcErrors } } := by
  unfold State.completeCell
  rw [State.countLink_setDelineation]
  simp only [if_pos h, State.countLink, State.link_setLink_same, State.setLink_setLink]
  rfl

theorem State.completeCell_stamp (h : (crc32 (crcCover bytes)).toNat = fieldNat bytes 12 4)
    (hs : 640000000 ≤ fieldNat bytes 8 4) :
    (s.setDelineation l (.trailing false)).completeCell l bytes = s.setLink l { (s.link l).completed with
      counts := { (s.link l).completed.counts with badStamps := bump (s.link l).counts.badStamps } } := by
  unfold State.completeCell
  rw [State.countLink_setDelineation]
  simp only [if_neg (not_not.mpr h), if_pos (show Config.stampCycle ≤ fieldNat bytes 8 4 from hs), State.countLink,
    State.link_setLink_same, State.setLink_setLink]
  rfl

theorem State.completeCell_good (h : (crc32 (crcCover bytes)).toNat = fieldNat bytes 12 4)
    (hs : fieldNat bytes 8 4 < 640000000) :
    (s.setDelineation l (.trailing false)).completeCell l bytes =
      ((s.setLink l (s.link l).completed).linkGood l).joinHandOn l (s.goodCell l bytes) := by
  unfold State.completeCell
  rw [State.countLink_setDelineation]
  simp only [if_neg (not_not.mpr h), if_neg (show ¬Config.stampCycle ≤ fieldNat bytes 8 4 from not_le.mpr hs)]
  rfl

/-- A receiver once a good cell has come to its hand-on queue: the cell joins it, or is an overrun (R32). -/
def LinkState.offered (c : GoodCell) (k : LinkState) : LinkState :=
  if k.handOn.length < 4 then { k with handOn := k.handOn ++ [c] }
  else { k with counts := { k.counts with overruns := bump k.counts.overruns } }

theorem State.joinHandOn_eq (c : GoodCell) : s.joinHandOn l c = s.setLink l ((s.link l).offered c) := by
  unfold State.joinHandOn LinkState.offered
  split
  · rfl
  · rfl

/-! ## The state of a link (R33 to R35) -/

theorem State.linkGood_up (h : (s.link l).up = true) :
    s.linkGood l = s.setLink l { s.link l with timer := some (s.site.linkTimeout * 10000) } := if_pos h

theorem State.linkGood_down (h : (s.link l).up = false) : s.linkGood l =
    ((s.setLink l { s.link l with up := true, timer := some (s.site.linkTimeout * 10000) }).raise
      (.link l true)).feedNotice true l := if_neg (ne_true_of_eq_false h)

/-- The notices of a link change touch nothing but the Control Link. -/
theorem State.linkNotices_eq (up : Bool) (l : Link) (s : State) :
    (s.raise (.link l up)).feedNotice up l =
      { s with control := ((s.raise (.link l up)).feedNotice up l).control } := by
  unfold State.feedNotice
  split
  · rfl
  · rfl

/-- The notices of a link change while the queue has room for two (R35). -/
theorem State.linkNotices_room (up : Bool) (hr : s.control.notices.length < 63) :
    ((s.raise (.link l up)).feedNotice up l).control = { s.control with
      notices := s.control.notices ++ [s.time.noticeOf (.link l up)] ++
        (if (s.link (otherLink l)).up then [] else [s.time.noticeOf (.feed up l)]) } := by
  have hlink : (s.raise (.link l up)).link (otherLink l) = s.link (otherLink l) := by cases l <;> rfl
  unfold State.feedNotice
  rw [hlink, State.raise_room _ (Nat.lt_succ_of_lt hr)]
  split
  · rw [List.append_nil]
    rfl
  · rw [State.raise_room]
    · rfl
    · simp only [State.noticesWith, List.length_append, List.length_singleton]
      omega

/-- The notices of a link change while the queue is full: both are lost (R190). -/
theorem State.linkNotices_full (up : Bool) (hr : 64 ≤ s.control.notices.length) :
    ((s.raise (.link l up)).feedNotice up l).control = { s.control with noticesLost := true } := by
  unfold State.feedNotice
  rw [State.raise_full _ hr]
  split
  · rfl
  · rw [State.raise_full]
    · exact hr

theorem State.link_setControl (c : ControlLink) (m : Link) : ({ s with control := c } : State).link m = s.link m := by
  cases m <;> rfl

/-- A receiver that a good cell brings UP, before the cell joins the queue (R34). -/
def LinkState.broughtUp (ticks : Nat) (k : LinkState) : LinkState := { k.completed with up := true, timer := some ticks }

/-- The notices of a link that a good cell brings UP. -/
def State.upNotices (l : Link) (s : State) : ControlLink :=
  (((s.setLink l ((s.link l).broughtUp (s.site.linkTimeout * 10000))).raise (.link l true)).feedNotice true l).control

theorem State.completeCell_bringsUp (h : (crc32 (crcCover bytes)).toNat = fieldNat bytes 12 4)
    (hs : fieldNat bytes 8 4 < 640000000) (hup : (s.link l).up = false) :
    (s.setDelineation l (.trailing false)).completeCell l bytes =
      ({ s with control := s.upNotices l } : State).setLink l
        (((s.link l).broughtUp (s.site.linkTimeout * 10000)).offered (s.goodCell l bytes)) := by
  have hup' : ((s.setLink l (s.link l).completed).link l).up = false := by
    rw [State.link_setLink_same]
    exact hup
  rw [State.completeCell_good h hs, State.linkGood_down hup', State.link_setLink_same, State.setLink_setLink,
    State.linkNotices_eq, State.joinHandOn_eq]
  cases l <;> rfl

theorem State.up_setLink_other (k : LinkState) :
    ((s.setLink l k).link (otherLink l)).up = (s.link (otherLink l)).up := by rw [State.link_setLink_other]

/-- A receiver that the link timer takes DOWN (R33). -/
def LinkState.takenDown (k : LinkState) : LinkState := { k with up := false, timer := none }

/-- The link timer's expiry: the receiver, the notices, and the permit. -/
theorem State.linkExpire_eq (l : Link) (s : State) : s.linkExpire l = ({ s.setLink l (s.link l).takenDown with
    control := (((s.setLink l (s.link l).takenDown).raise (.link l false)).feedNotice false l).control } :
      State).dropPermit :=
  congrArg State.dropPermit (State.linkNotices_eq _ _ _)

theorem State.link_linkExpire_same (l : Link) (s : State) : (s.linkExpire l).link l = (s.link l).takenDown := by
  rw [State.linkExpire_eq]
  cases l <;> rfl

theorem State.link_linkExpire_other (l : Link) (s : State) :
    (s.linkExpire l).link (otherLink l) = s.link (otherLink l) := by
  rw [State.linkExpire_eq]
  cases l <;> rfl

theorem State.control_linkExpire (l : Link) (s : State) : (s.linkExpire l).control =
    (((s.setLink l (s.link l).takenDown).raise (.link l false)).feedNotice false l).control := by
  rw [State.linkExpire_eq]
  rfl

/-- Under feed-loss mute the permit falls with the feed (R20, R35). -/
theorem State.permit_dropPermit_mute (hm : s.site.mute = true) (hf : s.feedLive = false) :
    s.dropPermit.output.permit = false := by
  have hc : s.permitCondition = false := by
    unfold State.permitCondition
    rw [hm, hf]
    simp
  show (s.output.permit && s.permitCondition) = false
  rw [hc, Bool.and_false]

theorem State.feedLive_down (h : (s.link l).up = false) (h' : (s.link (otherLink l)).up = false) : s.feedLive = false := by
  unfold State.feedLive
  cases l with
  | a => exact Bool.or_eq_false_iff.mpr ⟨h, h'⟩
  | b => exact Bool.or_eq_false_iff.mpr ⟨h', h⟩

end

/-! ## The statements -/

/-- Settles O16, by the first check that the cell fails; a good cell restarts the timer and comes to the queue. -/
theorem cellArrives : Obligations.CellArrives := by
  unfold Obligations.CellArrives
  rintro l b taken s bytes hcell hlen rfl
  simp only [exec_cellArrival_completes hcell hlen]
  refine ⟨fun hcrc => ?_, fun hcrc hstamp => ?_, fun hcrc hstamp hup => ?_⟩
  · rw [State.completeCell_crc hcrc]
    rfl
  · rw [State.completeCell_stamp hcrc hstamp]
    rfl
  · have hup' : ((s.setLink l (s.link l).completed).link l).up = true := by
      rw [State.link_setLink_same]
      exact hup
    rw [State.completeCell_good hcrc hstamp, State.linkGood_up hup', State.joinHandOn_eq]
    simp only [State.link_setLink_same, State.setLink_setLink]
    rfl

/-- Settles O17: a link that comes up or goes down, with room for its notices or without. -/
theorem linkUpAndDown : Obligations.LinkUpAndDown := by
  unfold Obligations.LinkUpAndDown
  refine ⟨?_, fun l s ht hr => ?_, fun l s ht hr => ?_⟩
  · rintro l b taken s bytes hcell hlen rfl hcrc hstamp hup
    refine ⟨_, exec_cellArrival_completes hcell hlen, ?_⟩
    rw [State.completeCell_bringsUp hcrc hstamp hup]
    refine ⟨by cases l <;> rfl, State.link_setLink_same _ _ _, (State.link_setLink_other _ _ _).trans
      (State.link_setControl _ _), fun hr => ?_, fun hr => ?_⟩
    · have hn := State.linkNotices_room (l := l)
        (s := s.setLink l ((s.link l).broughtUp (s.site.linkTimeout * 10000))) true hr
      rw [State.up_setLink_other] at hn
      exact hn
    · exact State.linkNotices_full true hr
  · have hexec : exec (.linkTimeout l) s = .next (s.linkExpire l) := congrArg Host.Outcome.next (if_pos ht)
    have hfull := State.linkNotices_full (l := l) (s := s.setLink l (s.link l).takenDown) false hr
    exact ⟨_, hexec, (s.control_linkExpire l).trans hfull, s.link_linkExpire_same l⟩
  · have hexec : exec (.linkTimeout l) s = .next (s.linkExpire l) := congrArg Host.Outcome.next (if_pos ht)
    have hn := State.linkNotices_room (l := l) (s := s.setLink l (s.link l).takenDown) false hr
    rw [State.up_setLink_other] at hn
    refine ⟨_, hexec, s.link_linkExpire_same l, s.link_linkExpire_other l,
      congrArg ControlLink.notices ((s.control_linkExpire l).trans hn), fun hm ho => ?_, ?_⟩
    · rw [State.linkExpire_eq]
      refine State.permit_dropPermit_mute hm (State.feedLive_down (l := l) ?_ ?_)
      · exact congrArg LinkState.up ((State.link_setControl _ l).trans (State.link_setLink_same _ _ _))
      · rw [State.link_setControl, State.link_setLink_other]
        exact ho
    · rw [State.linkExpire_eq]
      exact ⟨rfl, rfl, rfl, rfl⟩

end Sys2Proof.Machine

/-! SUPPORT. A cell taken from a hand-on queue: the two lookups, the merge and the hand-on (R39 to R45, R65, R66, R69). -/

namespace Sys2Proof.Machine

/-! ## The lookups (R40 to R42) -/

theorem PermittedLinks.includes_iff {p : PermittedLinks} {l : Link} :
    p.includes l = true ↔ p = .both ∨ (p = .a ∧ l = .a) ∨ (p = .b ∧ l = .b) := by
  cases p <;> cases l <;> decide

theorem PermittedLinks.not_includes_iff {p : PermittedLinks} {l : Link} :
    p.includes l = false ↔ (p = .a ∧ l = .b) ∨ (p = .b ∧ l = .a) := by
  cases p <;> cases l <;> decide

theorem originLookup_some {origins : Table OriginEntry} {id : BitVec 32} {l : Link} {o : Nat}
    (h : originLookup origins id l = some o) :
    ∃ e, (o, e) ∈ origins ∧ e.originId = id ∧ e.links.includes l = true := by
  unfold originLookup at h
  obtain ⟨⟨o, e⟩, hfirst, rfl⟩ := Option.map_eq_some_iff.mp h
  obtain ⟨hmem, hp⟩ := Table.firstSuch_some hfirst
  rw [Bool.and_eq_true, decide_eq_true_eq] at hp
  exact ⟨e, hmem, hp.1, hp.2⟩

theorem originLookup_none {origins : Table OriginEntry} {id : BitVec 32} {l : Link}
    (h : originLookup origins id l = none) {j : Nat} {e : OriginEntry} (hm : (j, e) ∈ origins) (hid : e.originId = id) :
    e.links.includes l = false := by
  unfold originLookup at h
  have hp := Table.firstSuch_none (Option.map_eq_none_iff.mp h) hm
  rwa [decide_eq_true hid, Bool.true_and] at hp

theorem streamLookup_some {streams : Table StreamEntry} {label origin k : Nat} {e : StreamEntry}
    (h : streamLookup streams label origin = some (k, e)) : (k, e) ∈ streams ∧ e.label = label ∧ e.origin = origin := by
  obtain ⟨hmem, hp⟩ := Table.firstSuch_some h
  rw [Bool.and_eq_true, decide_eq_true_eq, decide_eq_true_eq] at hp
  exact ⟨hmem, hp⟩

theorem streamLookup_none {streams : Table StreamEntry} {label origin : Nat}
    (h : streamLookup streams label origin = none) {j : Nat} {e : StreamEntry} (hm : (j, e) ∈ streams) :
    e.label ≠ label ∨ e.origin ≠ origin := by
  have hp := Table.firstSuch_none h hm
  rw [Bool.and_eq_false_iff, decide_eq_false_iff_not, decide_eq_false_iff_not] at hp
  exact hp

theorem originKnown_iff {origins : Table OriginEntry} {id : BitVec 32} :
    originKnown origins id = true ↔ ∃ j e, (j, e) ∈ origins ∧ e.originId = id := by
  unfold originKnown
  rw [Table.someSuch_iff]
  simp only [decide_eq_true_eq]

/-- Settles O20: what the searches of the two tables find. -/
theorem lookups : Obligations.Lookups := by
  unfold Obligations.Lookups
  refine ⟨fun origins id l o h => ?_, fun origins id l h j e hm hid => ?_, fun streams label origin k e h => ?_,
    fun streams label origin h j e hm => ?_⟩
  · obtain ⟨e, hm, hid, hl⟩ := originLookup_some h
    exact ⟨e, hm, hid, PermittedLinks.includes_iff.mp hl⟩
  · exact PermittedLinks.not_includes_iff.mp (originLookup_none h hm hid)
  · exact streamLookup_some h
  · exact streamLookup_none h hm

/-! ## A cell taken (R39) -/

section

variable {l : Link} {c : GoodCell} {rest : List GoodCell} {s : State} {o k : Nat} {e : StreamEntry}

/-- A receiver whose hand-on queue has given its head. -/
def LinkState.popped (rest : List GoodCell) (k : LinkState) : LinkState := { k with handOn := rest }

theorem exec_cellTake (hq : (s.link l).handOn = c :: rest) (hl : c.link = l) :
    exec (.cellTake l) s = .next ((s.setLink l ((s.link l).popped rest)).classify c) := by
  subst hl
  refine congrArg Host.Outcome.next ?_
  unfold State.takeCell
  rw [hq]
  rfl

theorem State.classify_unknown (h : originLookup s.origins c.originId c.link = none) :
    s.classify c = s.unknownOrigin c := by
  unfold State.classify
  rw [h]

theorem State.classify_miss (ho : originLookup s.origins c.originId c.link = some o)
    (hm : streamLookup s.streams (cellLabel c.cell) o = none) :
    s.classify c = s.countLink c.link (fun k => { k with streamMisses := bump k.streamMisses }) := by
  unfold State.classify
  simp only [ho, hm]

theorem State.classify_found (ho : originLookup s.origins c.originId c.link = some o)
    (hf : streamLookup s.streams (cellLabel c.cell) o = some (k, e)) : s.classify c = s.mergeTaken c k o e := by
  unfold State.classify
  simp only [ho, hf]

/-- A count on a link beside a change of the streams. -/
theorem State.countLink_beside (f : LinkCounts → LinkCounts) (x : LinkState) (streams : Table StreamEntry) :
    ({ s.setLink l x with streams := streams } : State).countLink l f =
      { s.setLink l { x with counts := f x.counts } with streams := streams } := by
  cases l <;> rfl

theorem State.countLink_setLink (f : LinkCounts → LinkCounts) (x : LinkState) :
    (s.setLink l x).countLink l f = s.setLink l { x with counts := f x.counts } := by
  cases l <;> rfl

theorem State.unknownOrigin_flagged {x : LinkState} (h : x.unknownFlag = true) :
    (s.setLink c.link x).unknownOrigin c =
      s.setLink c.link { x with counts := { x.counts with unknownOrigin := bump x.counts.unknownOrigin } } := by
  unfold State.unknownOrigin
  rw [State.countLink_setLink]
  refine if_pos ?_
  rw [State.link_setLink_same]
  exact h

theorem State.unknownOrigin_first {x : LinkState} (h : x.unknownFlag = false) :
    (s.setLink c.link x).unknownOrigin c = (s.setLink c.link { x with
      unknownFlag := true, counts := { x.counts with unknownOrigin := bump x.counts.unknownOrigin } }).raise
        (.originUnknown c.link c.originId (cellLabel c.cell) (originKnown s.origins c.originId)) := by
  unfold State.unknownOrigin
  rw [State.countLink_setLink]
  simp only [State.link_setLink_same, State.setLink_setLink, h, Bool.false_eq_true, if_false, State.setLink_origins]

/-- The hand-on of an accepted cell by its class (R43, R44). -/
theorem State.handOut_eq (h : HandedCell) (s : State) : s.handOut h = { s with
    toRelease := if h.cls = .service ∨ h.cls = .shared ∨ h.cls = .cue then s.toRelease ++ [h] else s.toRelease
    toTiming := if h.cls = .timing then s.toTiming ++ [h] else s.toTiming
    toCue := if h.cls = .cue then s.toCue ++ [h] else s.toCue } := by
  unfold State.handOut
  cases h.cls with
  | service => rfl
  | shared => rfl
  | cue => rfl
  | timing => rfl
  | drop => rfl

end

/-! ## The statements -/

/-- Settles O18: the accepted cell is counted, its resynchronisation noticed, and the cell handed on. -/
theorem cellTakeAccepted : Obligations.CellTakeAccepted := by
  unfold Obligations.CellTakeAccepted
  rintro l c rest s o k e m lost jump hq rfl ho hf hmerge hr h
  rw [exec_cellTake hq rfl, State.classify_found (s := s.setLink _ _) ho hf]
  unfold State.mergeTaken
  simp only [hmerge, State.setLink_streams, State.countLink_beside, State.handOut_eq]
  cases jump with
  | none => rfl
  | some old =>
    simp only
    rw [State.raise_room]
    · rfl
    · exact hr

/-- Settles O21, by where the cell ends: at the first lookup, at the second, or at the merge. -/
theorem cellTakeDiscards : Obligations.CellTakeDiscards := by
  unfold Obligations.CellTakeDiscards
  rintro l c rest s hq rfl
  refine ⟨fun hnone => ⟨fun hflag => ?_, fun hflag hr => ?_⟩, fun o ho => ⟨fun hmiss => ?_, fun k e hf =>
    ⟨fun hdup => ?_, fun hstale => ?_⟩⟩⟩
  · rw [exec_cellTake hq rfl, State.classify_unknown (s := s.setLink _ _) hnone, State.unknownOrigin_flagged (x := (s.link c.link).popped rest) hflag]
    show _ = Host.Outcome.next (s.setLink c.link { s.link c.link with handOn := rest, unknownFlag := true, counts := _ })
    rw [← hflag]
    rfl
  · rw [exec_cellTake hq rfl, State.classify_unknown (s := s.setLink _ _) hnone, State.unknownOrigin_first (x := (s.link c.link).popped rest) hflag]
    refine ⟨originKnown s.origins c.originId, ?_, originKnown_iff⟩
    rw [State.raise_room]
    · rfl
    · exact hr
  · rw [exec_cellTake hq rfl, State.classify_miss (s := s.setLink _ _) ho hmiss, State.countLink_setLink]
    rfl
  · rw [exec_cellTake hq rfl, State.classify_found (s := s.setLink _ _) ho hf]
    unfold State.mergeTaken
    simp only [hdup, State.setLink_streams, State.countLink_beside]
    rfl
  · rw [exec_cellTake hq rfl, State.classify_found (s := s.setLink _ _) ho hf]
    unfold State.mergeTaken
    simp only [hstale, State.setLink_streams]
    rfl

end Sys2Proof.Machine

/-! SUPPORT. Classification tables (03): ORIGIN.SET and SERVICE.SET, their checks in the statements' words, and the statements
about them. -/

namespace Sys2Proof.Machine

/-! ## ORIGIN.SET (R48, R49) -/

section

variable {s : State} {k : Nat} {id : BitVec 32} {p : PermittedLinks}

/-- Another valid entry holds the origin id. -/
theorem originTaken_iff {origins : Table OriginEntry} :
    origins.someSuch (fun j e => decide (j ≠ k) && decide (e.originId = id)) = true ↔
      ∃ j e, (j, e) ∈ origins ∧ j ≠ k ∧ e.originId = id := by
  simp [Table.someSuch_iff]

theorem originNamed_iff {streams : Table StreamEntry} :
    streams.someSuch (fun _ e => decide (e.origin = k)) = true ↔ ∃ j e, (j, e) ∈ streams ∧ e.origin = k := by
  simp [Table.someSuch_iff]

/-- The streams after a valid write of origin entry `k` (R48): a new origin id of a valid entry makes their records FRESH. -/
def State.streamsOfOrigin (k : Nat) (id : BitVec 32) (s : State) : Table StreamEntry :=
  if (match s.origins.get k with
    | some old => decide (old.originId ≠ id)
    | none => false) then s.streams.mapAll (fun e => if e.origin = k then { e with merge := .fresh } else e)
  else s.streams

open Classical in
theorem State.get_streamsOfOrigin (k : Nat) (id : BitVec 32) (s : State) (i : Nat) :
    (s.streamsOfOrigin k id).get i = (s.streams.get i).map (fun e =>
      if (∃ old, s.origins.get k = some old ∧ old.originId ≠ id) ∧ e.origin = k then { e with merge := .fresh } else e) := by
  have hkept (hno : ¬∃ old, s.origins.get k = some old ∧ old.originId ≠ id) : s.streams.get i = (s.streams.get i).map
      (fun e => if (∃ old, s.origins.get k = some old ∧ old.originId ≠ id) ∧ e.origin = k then
        { e with merge := .fresh } else e) := by
    cases s.streams.get i with
    | none => rfl
    | some e => exact congrArg some (if_neg fun h => hno h.1).symm
  unfold State.streamsOfOrigin
  by_cases hex : ∃ old, s.origins.get k = some old ∧ old.originId ≠ id
  · obtain ⟨old, hold, hid⟩ := hex
    have hpos : (match s.origins.get k with
      | some old => decide (old.originId ≠ id)
      | none => false) = true := by rw [hold]; exact decide_eq_true hid
    rw [if_pos hpos, Table.get_mapAll]
    simp only [show ∃ old, s.origins.get k = some old ∧ old.originId ≠ id from ⟨old, hold, hid⟩, true_and]
  · rw [← hkept hex]
    cases hold : s.origins.get k with
    | none => rfl
    | some old => rw [if_neg (by simpa using fun hid => hex ⟨old, hold, hid⟩)]

theorem handleOriginSet_unread {index valid links : Byte}
    (h : 15 < index.toNat ∨ (valid ≠ 0#8 ∧ valid ≠ 1#8) ∨ 2 < links.toNat) :
    handleOriginSet index valid id links s = .refuse .range := by
  unfold handleOriginSet
  dsimp only
  rcases h with h | h | h
  · have hr : readRange 0 15 index.toNat = none := if_neg (by omega)
    simp only [hr]
  · have hr : readFlag valid = none := (readFlag_eq valid).trans (if_neg (by bv_omega))
    rw [hr]
    cases readRange 0 15 index.toNat with
    | none => rfl
    | some _ => rfl
  · have hr : readLinks links = none := (readLinks_eq links).trans (if_neg (by omega))
    rw [hr]
    cases readRange 0 15 index.toNat with
    | none => rfl
    | some _ =>
      cases readFlag valid with
      | none => rfl
      | some b => cases b <;> rfl

theorem readRange_zero {hi n : Nat} (h : n ≤ hi) : readRange 0 hi n = some n := if_pos ⟨Nat.zero_le n, h⟩

theorem handleOriginSet_write {index links : Byte} (hk : index.toNat ≤ 15) (hp : readLinks links = some p) :
    handleOriginSet index 1#8 id links s =
      if s.origins.someSuch (fun j e => decide (j ≠ index.toNat) && decide (e.originId = id)) then .refuse .duplicate
      else .ok { s with
        origins := s.origins.put index.toNat { originId := id, links := p }
        streams := s.streamsOfOrigin index.toNat id } [] := by
  unfold handleOriginSet
  simp only [readRange_zero hk, hp]
  rfl

theorem handleOriginSet_clear {index links : Byte} (hk : index.toNat ≤ 15) (hp : readLinks links = some p) :
    handleOriginSet index 0#8 id links s =
      if (s.origins.get index.toNat).isSome ∧ s.streams.someSuch (fun _ e => decide (e.origin = index.toNat)) = true then
        .refuse .inUse
      else .ok { s with origins := s.origins.del index.toNat } [] := by
  unfold handleOriginSet
  simp only [readRange_zero hk, hp]
  rfl

end

/-- Settles O22: each clause is one branch of the Classifier's answer. -/
theorem originSet : Obligations.OriginSet := by
  unfold Obligations.OriginSet
  intro tag index valid id links s hmay dup used
  refine ⟨fun hout => next_request_refuse hmay rfl (handleOriginSet_unread hout), fun hk hl => ?_⟩
  have hp := (readLinks_eq links).trans (if_pos hl)
  have hused : (s.origins.get index.toNat).isSome ∧
      s.streams.someSuch (fun _ e => decide (e.origin = index.toNat)) = true ↔ used := by rw [originNamed_iff]
  refine ⟨?_, ?_, ?_, ?_⟩
  · rintro rfl hdup
    exact next_request_refuse hmay rfl ((handleOriginSet_write hk hp).trans (if_pos (originTaken_iff.mpr hdup)))
  · rintro rfl hdup
    refine ⟨_, next_request_ok hmay rfl ((handleOriginSet_write hk hp).trans (if_neg (mt originTaken_iff.mp hdup))), rfl,
      fun k => ?_⟩
    convert s.get_streamsOfOrigin index.toNat id k
  · rintro rfl huse
    exact next_request_refuse hmay rfl ((handleOriginSet_clear hk hp).trans (if_pos (hused.mpr huse)))
  · rintro rfl huse
    exact next_request_ok hmay rfl ((handleOriginSet_clear hk hp).trans (if_neg (mt hused.mp huse)))

/-! ## SERVICE.SET (R53 to R55) -/

section

variable {s : State} {k number : Nat} {labels : List Nat}

theorem hasRepeat_iff {xs : List Nat} : hasRepeat xs = true ↔ ¬xs.Nodup := by
  induction xs with
  | nil => simp [hasRepeat]
  | cons x xs ih =>
    rw [hasRepeat, Bool.or_eq_true, decide_eq_true_eq, ih, List.nodup_cons, not_and_or, not_not]

/-- A component after an accepted SERVICE.SET (R54): the old one at its position where its label stays. -/
def Component.rewritten (old : Option Component) (label : Nat) : Component :=
  match old with
  | some c => if c.label = label then c else Component.fresh label
  | none => Component.fresh label

theorem Component.label_rewritten (old : Option Component) (label : Nat) :
    (Component.rewritten old label).label = label := by
  unfold Component.rewritten
  cases old with
  | none => rfl
  | some c =>
    by_cases h : c.label = label
    · simp only [h, if_true]
    · simp only [if_neg h, Component.fresh]

theorem Component.rewritten_new {old : Option Component} {label : Nat} (h : ∀ c, old = some c → c.label ≠ label) :
    Component.rewritten old label = Component.fresh label := by
  cases old with
  | none => rfl
  | some c => exact if_neg (h c rfl)

theorem mergeComponents_get (old : List Component) (labels : List Nat) (i : Nat) :
    (mergeComponents old labels)[i]? = labels[i]?.map (Component.rewritten old[i]?) := by
  induction labels generalizing old i with
  | nil => cases old <;> simp [mergeComponents]
  | cons l ls ih =>
    cases old with
    | nil =>
      cases i with
      | zero => rfl
      | succ i => simpa [mergeComponents] using ih [] i
    | cons c cs =>
      cases i with
      | zero => rfl
      | succ i => simpa [mergeComponents] using ih cs i

theorem mergeComponents_labels (old : List Component) (labels : List Nat) :
    (mergeComponents old labels).map (·.label) = labels := by
  induction labels generalizing old with
  | nil => cases old <;> rfl
  | cons l ls ih =>
    cases old with
    | nil => rw [mergeComponents, List.map_cons, ih]; rfl
    | cons c cs =>
      rw [mergeComponents, List.map_cons, ih]
      exact congrArg (· :: ls) (Component.label_rewritten (some c) l)

theorem ServiceEntry.clockLabel_eq (e : ServiceEntry) : e.clockLabel = e.labels.head? := by
  unfold ServiceEntry.clockLabel ServiceEntry.labels
  rw [List.head?_map]

theorem ServiceEntry.rewritten_number (old : Option ServiceEntry) (number : Nat) (labels : List Nat) :
    (ServiceEntry.rewritten old number labels).number = number := by
  cases old <;> rfl

theorem ServiceEntry.rewritten_labels (old : Option ServiceEntry) (number : Nat) (labels : List Nat) :
    (ServiceEntry.rewritten old number labels).labels = labels := by
  cases old with
  | some e => exact mergeComponents_labels _ _
  | none =>
    show (labels.map Component.fresh).map (·.label) = labels
    rw [List.map_map]
    exact List.map_id _

open Classical in
/-- SERVICE.SET of fields in range with valid set: its checks in their order, and its acceptance (R53). -/
theorem handleServiceWrite_eq : handleServiceWrite k number labels s =
    if ¬labels.Nodup ∨ ∃ j e l, (j, e) ∈ s.services ∧ j ≠ k ∧ l ∈ e.labels ∧ l ∈ labels then .refuse .duplicate
    else if s.spliceOf k ≠ .network then .refuse .busy
    else if ∃ j e, (j, e) ∈ s.streams ∧ e.cls = .service ∧ e.service = some k ∧ e.label ∉ labels then .refuse .notMapped
    else if (∃ e, s.services.get k = some e ∧ labels.length < e.components.length) ∧
        ∃ j r, (j, r) ∈ s.insertions ∧ r.state = .armed ∧ r.service = k then .refuse .inUse
    else .ok { s with services := s.services.put k (.rewritten (s.services.get k) number labels) } [] := by
  have hdup : (hasRepeat labels || s.services.someSuch (fun j e => decide (j ≠ k) &&
      labels.any (fun l => decide (l ∈ e.labels)))) = true ↔
      ¬labels.Nodup ∨ ∃ j e l, (j, e) ∈ s.services ∧ j ≠ k ∧ l ∈ e.labels ∧ l ∈ labels := by
    simp only [Bool.or_eq_true, hasRepeat_iff, Table.someSuch_iff, Bool.and_eq_true, decide_eq_true_eq, List.any_eq_true]
    grind
  have hlost : s.streams.someSuch (fun _ e =>
      decide (e.cls = .service) && decide (e.service = some k) && !decide (e.label ∈ labels)) = true ↔
      ∃ j e, (j, e) ∈ s.streams ∧ e.cls = .service ∧ e.service = some k ∧ e.label ∉ labels := by
    simp [Table.someSuch_iff, and_assoc]
  have harmed : ((match s.services.get k with
      | some e => decide (labels.length < e.components.length)
      | none => false) && s.armedNames k) = true ↔
      (∃ e, s.services.get k = some e ∧ labels.length < e.components.length) ∧
        ∃ j r, (j, r) ∈ s.insertions ∧ r.state = .armed ∧ r.service = k := by
    rw [Bool.and_eq_true]
    refine and_congr ?_ (by simp [State.armedNames, Table.someSuch_iff])
    cases s.services.get k <;> simp
  exact if_congr hdup rfl (if_congr Iff.rfl rfl (if_congr hlost rfl (if_congr harmed rfl rfl)))

theorem handleServiceClear_used_iff : (s.streams.someSuch (fun _ e => e.cls.needsService && decide (e.service = some k)) ||
    s.insertions.someSuch (fun _ r => decide (r.state ≠ .done) && decide (r.service = k))) = true ↔
    (∃ j e, (j, e) ∈ s.streams ∧ e.cls.needsService = true ∧ e.service = some k) ∨
      ∃ j r, (j, r) ∈ s.insertions ∧ r.state ≠ .done ∧ r.service = k := by
  simp [Table.someSuch_iff]

/-! ## The fields of SERVICE.SET -/

theorem handleServiceSet_unread {b : ServiceSetBody} (h : 63 < b.index.toNat ∨ (b.valid ≠ 0#8 ∧ b.valid ≠ 1#8) ∨
    (b.valid = 1#8 ∧ ¬(1 ≤ b.labels.length ∧ b.labels.length ≤ 4 ∧ ∀ l ∈ b.labels, l.toNat ≤ 4094))) :
    handleServiceSet b s = .refuse .range := by
  unfold handleServiceSet
  rcases h with h | h | ⟨hv, hl⟩
  · have hr : readRange 0 63 b.index.toNat = none := if_neg (by omega)
    simp only [hr]
  · have hr : readFlag b.valid = none := (readFlag_eq _).trans (if_neg (by bv_omega))
    rw [hr]
    cases readRange 0 63 b.index.toNat with
    | none => rfl
    | some _ => rfl
  · rw [hv, readLabels_none hl]
    cases readRange 0 63 b.index.toNat with
    | none => rfl
    | some _ => rfl

theorem handleServiceSet_write {b : ServiceSetBody} (hk : b.index.toNat ≤ 63) (hv : b.valid = 1#8)
    (hl : 1 ≤ b.labels.length ∧ b.labels.length ≤ 4 ∧ ∀ l ∈ b.labels, l.toNat ≤ 4094) :
    handleServiceSet b s = handleServiceWrite b.index.toNat b.number.toNat (b.labels.map BitVec.toNat) s := by
  unfold handleServiceSet
  rw [readRange_zero hk, hv, readLabels_some hl.1 hl.2.1 hl.2.2]
  rfl

theorem handleServiceSet_clear {b : ServiceSetBody} (hk : b.index.toNat ≤ 63) (hv : b.valid = 0#8) :
    handleServiceSet b s = handleServiceClear b.index.toNat s := by
  unfold handleServiceSet
  rw [readRange_zero hk, hv]
  rfl

end

/-- Settles O24: each clause is one branch of the Classifier's answer, the checks in their order. -/
theorem serviceSet : Obligations.ServiceSet := by
  unfold Obligations.ServiceSet
  refine ⟨fun tag b s hlen hmay hout => ?_, fun tag b s hk hv hl hmay => ?_, fun tag b s hk hv hlen hmay => ⟨fun hu => ?_, fun hu => ?_⟩⟩
  · exact next_request_refuse hmay (decide_eq_true hlen) (handleServiceSet_unread hout)
  · have hset := (handleServiceSet_write (s := s) hk hv hl).trans handleServiceWrite_eq
    have hw : (Instr.serviceSet tag b).wellFormed = true := decide_eq_true (by omega)
    refine ⟨fun hd => ?_, fun hd hb => ?_, fun hd hb hn => ?_, fun hd hb hn ha => ?_, fun hd hb hn ha =>
      ⟨.rewritten (s.services.get b.index.toNat) b.number.toNat (b.labels.map BitVec.toNat), ?_, ?_⟩⟩
    · exact next_request_refuse hmay hw (hset.trans (if_pos hd))
    · exact next_request_refuse hmay hw (hset.trans ((if_neg hd).trans (if_pos hb)))
    · exact next_request_refuse hmay hw (hset.trans ((if_neg hd).trans ((if_neg hb).trans (if_pos hn))))
    · exact next_request_refuse hmay hw (hset.trans ((if_neg hd).trans ((if_neg hb).trans ((if_neg hn).trans (if_pos ha)))))
    · exact next_request_ok hmay hw (hset.trans ((if_neg hd).trans ((if_neg hb).trans ((if_neg hn).trans (if_neg ha)))))
    · refine ⟨ServiceEntry.rewritten_number _ _ _, ServiceEntry.rewritten_labels _ _ _, fun hnone => ?_, fun e he => ?_⟩
      · rw [hnone]
        refine ⟨rfl, rfl, rfl, rfl, rfl, rfl, fun i c hc => ?_⟩
        obtain ⟨l, _, rfl⟩ := Option.map_eq_some_iff.mp (List.getElem?_map.symm.trans hc)
        exact ⟨rfl, rfl, rfl⟩
      · rw [he]
        refine ⟨rfl, rfl, rfl, rfl, rfl, fun hsame => ?_, fun hother => ?_, fun i c hc => ?_⟩
        · exact if_pos (e.clockLabel_eq.trans hsame)
        · exact if_neg (e.clockLabel_eq ▸ hother)
        · obtain ⟨l, _, rfl⟩ := Option.map_eq_some_iff.mp ((mergeComponents_get _ _ i).symm.trans hc)
          rw [Component.label_rewritten]
          refine ⟨fun old hold hlabel => ?_, fun hnew => ?_⟩
          · rw [hold]
            exact if_pos hlabel
          · rw [Component.rewritten_new hnew]
            exact ⟨rfl, rfl, rfl⟩
  · exact next_request_refuse hmay (decide_eq_true hlen)
      ((handleServiceSet_clear hk hv).trans (if_pos (handleServiceClear_used_iff.mpr hu)))
  · exact next_request_ok hmay (decide_eq_true hlen)
      ((handleServiceSet_clear hk hv).trans (if_neg (mt handleServiceClear_used_iff.mp hu)))

end Sys2Proof.Machine

/-! SUPPORT. The release computation (R79 to R86). -/

namespace Sys2Proof.Machine

section

variable {s : State} {h : HandedCell} {rest : List HandedCell} {a w g : Nat}

theorem exec_releaseComputation (hq : s.toRelease = h :: rest) :
    exec .releaseComputation s = .next (({ s with toRelease := rest } : State).releaseCell h) := by
  refine congrArg Host.Outcome.next ?_
  unfold State.takeRelease
  rw [hq]

theorem State.releaseCell_untimed (ha : h.item.arrivalStamp = none) :
    s.releaseCell h = s.countHanded h (fun c => { c with untimed := bump c.untimed }) := by
  unfold State.releaseCell
  rw [ha]

/-- A misaligned release instant counted (R81). -/
def State.countMisaligned (h : HandedCell) (s : State) : State :=
  if s.misaligned h.item.headStamp then s.countHanded h (fun c => { c with misaligned := bump c.misaligned }) else s

theorem State.countMisaligned_eq (h : HandedCell) (s : State) :
    s.countMisaligned h = { s with streams := (s.countMisaligned h).streams } := by
  unfold State.countMisaligned
  split
  · rfl
  · rfl

theorem State.releaseCell_timed (ha : h.item.arrivalStamp = some a) (hw : s.time.siteStamp = some w) :
    s.releaseCell h = (s.countMisaligned h).place h ((s.countMisaligned h).releaseSlot h.item.headStamp) a w := by
  unfold State.releaseCell
  rw [ha, hw]
  rfl

theorem TimeUnit.siteStamp_known {t : TimeUnit} (hk : t.epochKnown = true) :
    t.siteStamp = some (t.second.toNat % 64 * 10000000 + t.tick) := if_pos hk

theorem State.releaseInstant_eq {stamp R : Nat}
    (hR : (R : Int) = ((stamp : Int) + s.release.dn + s.release.offset - s.site.latency) % 640000000) :
    s.releaseInstant stamp = R :=
  (congrArg Int.toNat hR.symm).trans (Int.toNat_natCast R)

/-! ## The outcome by hold time (R82 to R84) -/

theorem State.place_late (hl : stampDiff (g * s.site.period) a < 2 * s.site.period) :
    s.place h g a w = s.countHanded h StreamCounts.bumpLate := by
  have ho : s.releaseOutcome g a w = .late := if_pos hl
  unfold State.place
  rw [ho]

theorem State.place_early (hl : 2 * s.site.period ≤ stampDiff (g * s.site.period) a)
    (he : (s.site.holdLimit : Int) < stampDiff (g * s.site.period) a) :
    s.place h g a w = s.countHanded h (fun c => { c with early := bump c.early }) := by
  have ho : s.releaseOutcome g a w = .early := (if_neg (not_lt.mpr hl)).trans (if_pos he)
  unfold State.place
  rw [ho]

/-- The cell is in time (R82, R83). -/
theorem State.releaseOutcome_held (hl : 2 * s.site.period ≤ stampDiff (g * s.site.period) a)
    (he : stampDiff (g * s.site.period) a ≤ s.site.holdLimit) : s.releaseOutcome g a w =
      if stampDiff (g * s.site.period) w ≤ 0 then .late
      else if (s.ring.get (g % 65536)).isSome then .collision else .written (g % 65536) :=
  (if_neg (not_lt.mpr hl)).trans (if_neg (not_lt.mpr he))

theorem State.place_begun (hl : 2 * s.site.period ≤ stampDiff (g * s.site.period) a)
    (he : stampDiff (g * s.site.period) a ≤ s.site.holdLimit) (hw : stampDiff (g * s.site.period) w ≤ 0) :
    s.place h g a w = s.countHanded h StreamCounts.bumpLate := by
  unfold State.place
  rw [(State.releaseOutcome_held hl he).trans (if_pos hw)]

theorem State.place_collides (hl : 2 * s.site.period ≤ stampDiff (g * s.site.period) a)
    (he : stampDiff (g * s.site.period) a ≤ s.site.holdLimit) (hw : 0 < stampDiff (g * s.site.period) w)
    (hr : (s.ring.get (g % 65536)).isSome = true) :
    s.place h g a w = s.countHanded h (fun c => { c with collision := bump c.collision }) := by
  unfold State.place
  rw [(State.releaseOutcome_held hl he).trans ((if_neg (not_le.mpr hw)).trans (if_pos hr))]

theorem State.place_written (hl : 2 * s.site.period ≤ stampDiff (g * s.site.period) a)
    (he : stampDiff (g * s.site.period) a ≤ s.site.holdLimit) (hw : 0 < stampDiff (g * s.site.period) w)
    (hr : s.ring.get (g % 65536) = none) :
    s.place h g a w = { s with ring := s.ring.put (g % 65536) (h.ringEntry g) } := by
  unfold State.place
  rw [(State.releaseOutcome_held hl he).trans ((if_neg (not_le.mpr hw)).trans (if_neg (by rw [hr]; decide)))]

/-- A count on an entry that still holds what the cell was looked up with (R45). -/
theorem countStream_holds {streams : Table StreamEntry} {k origin label : Nat} {cls : StreamClass} {e : StreamEntry}
    (f : StreamCounts → StreamCounts) (he : streams.get k = some e) (ho : e.origin = origin) (hl : e.label = label)
    (hc : e.cls = cls) : countStream streams k origin label cls f = streams.put k { e with counts := f e.counts } := by
  unfold countStream
  simp only [he]
  exact if_pos ⟨ho, hl, hc⟩

end

/-! ## The statements -/

/-- Settles O25: the untimed cell is counted on its stream and nothing else is done. -/
theorem untimedCellDiscarded : Obligations.UntimedCellDiscarded := by
  unfold Obligations.UntimedCellDiscarded
  rintro h rest s k e hq ha rfl he ho hl hc
  rw [exec_releaseComputation hq, State.releaseCell_untimed ha]
  show Host.Outcome.next ({ s with toRelease := rest, streams := countStream s.streams _ _ _ _ _ } : State) = _
  rw [countStream_holds _ he ho hl hc]
  rfl

/-- Settles O26, by the outcome of the hold time: late, early, begun, a collision, written. -/
theorem releaseComputation : Obligations.ReleaseComputation := by
  unfold Obligations.ReleaseComputation
  intro h rest s a g R hq ha hk hR hg w start count st
  obtain ⟨u, hu⟩ : ∃ u : State, u = { s with toRelease := rest } := ⟨_, rfl⟩
  have hinstant : u.releaseInstant h.item.headStamp = R := by
    rw [hu]
    exact State.releaseInstant_eq hR
  have hmis : u.countMisaligned h = { s with toRelease := rest, streams := st } := by
    rw [u.countMisaligned_eq h]
    unfold State.countMisaligned State.misaligned
    rw [hinstant, hu]
    by_cases hm : R % s.site.period ≠ 0
    · simp only [st, if_pos hm, if_pos (decide_eq_true hm)]
      rfl
    · simp only [st, if_neg hm, if_neg (show ¬decide (R % s.site.period ≠ 0) = true by simpa using hm)]
  have hexec : exec .releaseComputation s = .next (({ s with toRelease := rest, streams := st } : State).place h g a w) := by
    rw [exec_releaseComputation hq, ← hu, State.releaseCell_timed ha (w := w) (by rw [hu]; exact TimeUnit.siteStamp_known hk),
      hmis, hg, ← hinstant, hu]
    rfl
  rw [hexec]
  refine ⟨fun hl => ?_, fun hl he => ?_, fun hl he hw => ?_, fun hl he hw hr => ?_, fun hl he hw hr => ?_⟩
  · rw [State.place_late (by exact hl)]
    rfl
  · rw [State.place_early (by exact hl) (by exact he)]
    rfl
  · rw [State.place_begun (by exact hl) (by exact he) (by exact hw)]
    rfl
  · rw [State.place_collides (by exact hl) (by exact he) (by exact hw) (by exact hr)]
    rfl
  · rw [State.place_written (by exact hl) (by exact he) (by exact hw) (by exact hr)]
    rfl

end Sys2Proof.Machine

/-! SUPPORT. Timing cells (R18, R19, R75, R76): the payload read, the parameters it sets, the epoch it gives. -/

namespace Sys2Proof.Machine

section

variable {s : State} {h : HandedCell} {rest : List HandedCell} {y : Epoch} {p : TimingPayload} {stream : Nat}

/-! ## The payload (R75, R203) -/

theorem readTiming_malformed {payload : Bytes} (hbad : 8 < (byteAt payload 8).toNat ∨ 9999999 < fieldNat payload 4 4) :
    readTiming payload = none := if_pos hbad

/-- The payload of a timing cell as its fields give it (R203). -/
def timingPayload (payload : Bytes) : TimingPayload :=
  { epoch := BitVec.ofNat 32 (fieldNat payload 0 4), dn := fieldNat payload 4 4, count := (byteAt payload 8).toNat
    overrides := readOverrides payload (byteAt payload 8).toNat }

theorem readTiming_read {payload : Bytes} (hn : (byteAt payload 8).toNat ≤ 8) (hd : fieldNat payload 4 4 ≤ 9999999) :
    readTiming payload = some (timingPayload payload) := if_neg (by omega)

/-- The first override record of a site decides (R76). -/
theorem findOverride_first {payload : Bytes} {site n k : Nat} (hk : k < n) (hs : fieldNat payload (9 + 6 * k) 2 = site)
    (hfirst : ∀ j, j < k → fieldNat payload (9 + 6 * j) 2 ≠ site) :
    findOverride site (readOverrides payload n) = some (fieldInt32 payload (11 + 6 * k)) := by
  unfold findOverride readOverrides
  have hfind : (List.range n).find? (fun j => decide (fieldNat payload (9 + 6 * j) 2 = site)) = some k := by
    rw [List.find?_range_eq_some]
    refine ⟨decide_eq_true hs, List.mem_range.mpr hk, fun j hj => ?_⟩
    rw [decide_eq_false (hfirst j hj)]
    rfl
  rw [List.find?_map]
  simp only [Function.comp_def, hfind, Option.map_some]

theorem findOverride_absent {payload : Bytes} {site n : Nat} (hno : ∀ k, k < n → fieldNat payload (9 + 6 * k) 2 ≠ site) :
    findOverride site (readOverrides payload n) = none := by
  unfold findOverride readOverrides
  rw [Option.map_eq_none_iff, List.find?_eq_none]
  intro x hx
  obtain ⟨k, hk, rfl⟩ := List.mem_map.mp hx
  simpa using hno k (List.mem_range.mp hk)

/-! ## The parameters (R76) -/

/-- The record of a consistent timing cell (R76). -/
def State.timingRecord (stream : Nat) (p : TimingPayload) (s : State) : TimingRecord :=
  { stream := stream, epoch := p.epoch, dn := p.dn, overrides := p.count
    found := (findOverride s.site.siteId p.overrides).isSome
    clamped := match findOverride s.site.siteId p.overrides with
      | some received => decide (clamp (-5000000) 5000000 received ≠ received)
      | none => false
    taken := s.time.siteStamp }

theorem State.timingRecord_clamped {received : Int} (hf : findOverride s.site.siteId p.overrides = some received) :
    (s.timingRecord stream p).clamped = decide (clamp (-5000000) 5000000 received ≠ received) := by
  unfold State.timingRecord
  simp only [hf]

theorem State.timingRecord_unclamped (hf : findOverride s.site.siteId p.overrides = none) :
    (s.timingRecord stream p).clamped = false := by
  unfold State.timingRecord
  simp only [hf]

theorem State.takeParameters_absent (hf : findOverride s.site.siteId p.overrides = none) :
    s.takeParameters stream p = { s with release := { s.release with
      dn := p.dn, dnSource := .feed, lastTiming := some (s.timingRecord stream p), offset := s.site.offset
      offsetSource := .configured } } := by
  unfold State.takeParameters State.timingRecord
  simp only [hf]
  rfl

/-- The Control Link once the clamping of a site's override has been noticed (R76). -/
def State.clampNoticed (stream : Nat) (received : Int) (s : State) : ControlLink :=
  if clamp (-5000000) 5000000 received = received then s.control
  else (s.raise (.offsetClamp stream s.site.siteId received (clamp (-5000000) 5000000 received))).control

theorem State.takeParameters_found {received : Int} (hf : findOverride s.site.siteId p.overrides = some received) :
    s.takeParameters stream p = { s with
      release := { s.release with
        dn := p.dn, dnSource := .feed, lastTiming := some (s.timingRecord stream p)
        offset := clamp (-5000000) 5000000 received, offsetSource := .feed }
      control := s.clampNoticed stream received } := by
  unfold State.takeParameters State.timingRecord State.clampNoticed
  simp only [hf]
  by_cases hc : clamp (-5000000) 5000000 received = received
  · rw [if_pos hc]
    exact if_pos hc
  · rw [if_neg hc]
    exact if_neg hc

/-- The parameters touch the release parameters and the notices alone. -/
theorem State.takeParameters_eq (stream : Nat) (p : TimingPayload) (s : State) : ∃ release control,
    s.takeParameters stream p = { s with release := release, control := control } ∧ release.dn = p.dn ∧
      release.lastTiming = some (s.timingRecord stream p) ∧ release.dnSource = .feed := by
  cases hf : findOverride s.site.siteId p.overrides with
  | none =>
    rw [State.takeParameters_absent hf]
    exact ⟨_, _, rfl, rfl, rfl, rfl⟩
  | some received =>
    rw [State.takeParameters_found hf]
    exact ⟨_, _, rfl, rfl, rfl, rfl⟩

/-! ## The epoch (R18, R19) -/

theorem State.adoptEpoch_unknown (hk : s.time.epochKnown = false) : s.adoptEpoch y = ({ s with
    time := { s.time with second := y, epochKnown := true, mismatchCount := 0 }
    assembler := s.assembler.learnEpoch s.time.second y } : State).raiseTime (.epoch .adopted none y) :=
  if_neg (ne_true_of_eq_false hk)

theorem State.adoptEpoch_same (hk : s.time.epochKnown = true) (hy : y = s.time.second) :
    s.adoptEpoch y = { s with time := { s.time with mismatchCount := 0 } } := (if_pos hk).trans (if_pos hy)

theorem State.adoptEpoch_counted (hk : s.time.epochKnown = true) (hy : y ≠ s.time.second) (hm : s.time.mismatchCount < 2) :
    s.adoptEpoch y = { s with time := { s.time with mismatchCount := s.time.mismatchCount + 1 } } :=
  (if_pos hk).trans ((if_neg hy).trans (if_pos (Nat.succ_lt_succ hm)))

/-- The state in which the epoch moves at the third mismatch in a row (R19). -/
def State.readopting (y : Epoch) (s : State) : State :=
  ({ s with time := { s.time with second := y, mismatchCount := 0 } } : State).raiseTime
    (.epoch .readopted (some s.time.second) y)

theorem State.adoptEpoch_readopted (hk : s.time.epochKnown = true) (hy : y ≠ s.time.second)
    (hm : 2 ≤ s.time.mismatchCount) : s.adoptEpoch y = (s.readopting y).epochMove :=
  (if_pos hk).trans ((if_neg hy).trans (if_neg (by omega)))

/-- What an epoch given by a timing cell can change. -/
theorem State.adoptEpoch_eq (y : Epoch) (s : State) :
    ∃ second mismatch stepState qualifyCount holdover services slotSecond control output held,
      s.adoptEpoch y = { s with
        time := { s.time with
          second := second, epochKnown := true, mismatchCount := mismatch, stepState := stepState
          qualifyCount := qualifyCount, holdover := holdover }
        services := services
        assembler := { s.assembler with slotSecond := slotSecond }
        control := control
        output := output
        heldNotices := held } ∧ (s.time.epochKnown = true → slotSecond = s.assembler.slotSecond) := by
  cases hk : s.time.epochKnown with
  | false =>
    rw [State.adoptEpoch_unknown hk]
    exact ⟨_, _, _, _, _, _, _, _, _, _, rfl, (nomatch ·)⟩
  | true =>
    by_cases hy : y = s.time.second
    · rw [State.adoptEpoch_same hk hy, ← hk]
      exact ⟨_, _, _, _, _, _, _, _, _, _, rfl, fun _ => rfl⟩
    · by_cases hm : s.time.mismatchCount < 2
      · rw [State.adoptEpoch_counted hk hy hm, ← hk]
        exact ⟨_, _, _, _, _, _, _, _, _, _, rfl, fun _ => rfl⟩
      · obtain ⟨_, _, _, _, _, _, he, _⟩ := (s.readopting y).epochMove_eq
        rw [State.adoptEpoch_readopted hk hy (not_lt.mp hm), he, ← hk]
        exact ⟨_, _, _, _, _, _, _, _, _, _, rfl, fun _ => rfl⟩

/-! ## The notices of an epoch given by a timing cell (R5, R19, R23) -/

/-- The third mismatch in a row is reached: the epoch is adopted again (R19). -/
def State.readopts (y : Epoch) (s : State) : Prop :=
  s.time.epochKnown = true ∧ y ≠ s.time.second ∧ 2 ≤ s.time.mismatchCount

/-- What joins the notice queue at `s` when a timing cell's second is used, the state after it being `t`. -/
def State.epochJoins (y : Epoch) (s t : State) (epoch step : List Notice) : Prop :=
  t.control = { s.control with notices := s.control.notices ++ epoch ++ step } ∧
  (s.time.epochKnown = false → epoch = [t.time.noticeOf (.epoch .adopted none y)] ∧ step = []) ∧
  (s.readopts y → epoch = [t.time.noticeOf (.epoch .readopted (some s.time.second) y)] ∧
    (s.time.stepState = .instep → step = [t.time.noticeOf (.step .instep .acquire .epochMoved 0)]) ∧
    (s.time.stepState = .holdover → step = [t.time.noticeOf (.step .holdover .free .epochMoved 0)]) ∧
    (s.time.stepState = .free ∨ s.time.stepState = .acquire → step = [])) ∧
  (s.time.epochKnown = true → ¬s.readopts y → epoch = [] ∧ step = [])

theorem State.raiseTime_control (d : NoticeDetail) (hh : s.heldNotices = none) (hr : s.control.notices.length < 64) :
    (s.raiseTime d).control = { s.control with notices := s.control.notices ++ [s.time.noticeOf d] } := by
  rw [State.raiseTime_none d hh, State.raise_room d hr]
  rfl

theorem State.readopting_control (hh : s.heldNotices = none) (hr : s.control.notices.length < 64) :
    s.readopting y = { s with
      time := { s.time with second := y, mismatchCount := 0 }
      control := { s.control with notices := s.control.notices ++
        [({ s.time with second := y, mismatchCount := 0 } : TimeUnit).noticeOf
          (.epoch .readopted (some s.time.second) y)] } } := by
  unfold State.readopting
  rw [State.raiseTime_none]
  · rw [State.raise_room]
    · rfl
    · exact hr
  · exact hh

/-- The STEP notice of an epoch move (R5). -/
def TimeUnit.moveNotices (t : TimeUnit) : List Notice :=
  match t.stepState with
  | .instep => [t.noticeOf (.step .instep .acquire .epochMoved 0)]
  | .holdover => [t.noticeOf (.step .holdover .free .epochMoved 0)]
  | .free => []
  | .acquire => []

theorem TimeUnit.moveNotices_instep {t : TimeUnit} (h : t.stepState = .instep) :
    t.moveNotices = [t.noticeOf (.step .instep .acquire .epochMoved 0)] := by
  unfold TimeUnit.moveNotices
  rw [h]

theorem TimeUnit.moveNotices_holdover {t : TimeUnit} (h : t.stepState = .holdover) :
    t.moveNotices = [t.noticeOf (.step .holdover .free .epochMoved 0)] := by
  unfold TimeUnit.moveNotices
  rw [h]

theorem TimeUnit.moveNotices_still {t : TimeUnit} (h : t.stepState = .free ∨ t.stepState = .acquire) :
    t.moveNotices = [] := by
  unfold TimeUnit.moveNotices
  rcases h with h | h
  · rw [h]
  · rw [h]

theorem State.epochMove_control (hh : s.heldNotices = none) (hr : s.control.notices.length < 64) :
    s.epochMove.control = { s.control with notices := s.control.notices ++ s.time.moveNotices } := by
  have hstep {old new : StepState} (hs : s.time.stepState = old) (u : State) (hc : u.control = s.control)
      (hu : u.heldNotices = none) (hut : u.time.stepState = s.time.stepState)
      (hun : ∀ d, u.time.noticeOf d = s.time.noticeOf d) : (u.enterStep new .epochMoved).control =
        { s.control with notices := s.control.notices ++ [s.time.noticeOf (.step old new .epochMoved 0)] } := by
    rw [State.enterStep_control new .epochMoved hu (hc ▸ hr), State.noticesWith, hc, hun, hut, hs]
  cases hs : s.time.stepState with
  | free =>
    rw [State.epochMove_still (Or.inl hs), TimeUnit.moveNotices_still (Or.inl hs), List.append_nil]
    rfl
  | acquire =>
    rw [State.epochMove_still (Or.inr hs), TimeUnit.moveNotices_still (Or.inr hs), List.append_nil]
    rfl
  | instep =>
    rw [State.epochMove_instep hs, TimeUnit.moveNotices_instep hs]
    exact hstep hs _ rfl hh rfl (fun _ => rfl)
  | holdover =>
    rw [State.epochMove_holdover hs, TimeUnit.moveNotices_holdover hs]
    exact hstep hs _ rfl hh rfl (fun _ => rfl)

theorem State.noticeOf_epochMove (d : NoticeDetail) : s.epochMove.time.noticeOf d = s.time.noticeOf d := by
  obtain ⟨_, _, _, _, _, _, he, _⟩ := s.epochMove_eq
  rw [he]
  rfl

theorem State.adoptEpoch_joins (hh : s.heldNotices = none) (hr : s.control.notices.length < 63) :
    ∃ epoch step, s.epochJoins y (s.adoptEpoch y) epoch step := by
  have hsilent (t : State) (hc : t.control = s.control) (hk : s.time.epochKnown = true) (hno : ¬s.readopts y) :
      ∃ epoch step, s.epochJoins y t epoch step :=
    ⟨[], [], by rw [hc, List.append_nil, List.append_nil], fun h => absurd hk (ne_true_of_eq_false h), fun h => absurd h hno, fun _ _ => ⟨rfl, rfl⟩⟩
  cases hk : s.time.epochKnown with
  | false =>
    rw [State.adoptEpoch_unknown hk]
    refine ⟨_, [], ?_, fun _ => ⟨rfl, rfl⟩, fun h => absurd h.1 (ne_true_of_eq_false hk),
      fun h => absurd h (ne_true_of_eq_false hk)⟩
    rw [State.raiseTime_control _ (by exact hh) (by exact Nat.lt_succ_of_lt hr), List.append_nil]
    rfl
  | true =>
    by_cases hy : y = s.time.second
    · rw [State.adoptEpoch_same hk hy]
      exact hsilent _ rfl hk (fun h => h.2.1 hy)
    · by_cases hm : s.time.mismatchCount < 2
      · rw [State.adoptEpoch_counted hk hy hm]
        exact hsilent _ rfl hk (fun h => absurd h.2.2 (not_le.mpr hm))
      · have hre : s.readopts y := ⟨hk, hy, not_lt.mp hm⟩
        have hu := State.readopting_control (y := y) hh (Nat.lt_succ_of_lt hr)
        have hustate : (s.readopting y).time.stepState = s.time.stepState := rfl
        have huroom : (s.readopting y).control.notices.length < 64 := by
          rw [hu, List.length_append]
          exact Nat.succ_lt_succ hr
        have huheld : (s.readopting y).heldNotices = none := by rw [hu]; exact hh
        rw [State.adoptEpoch_readopted hk hy (not_lt.mp hm)]
        refine ⟨[(s.readopting y).time.noticeOf (.epoch .readopted (some s.time.second) y)],
          (s.readopting y).time.moveNotices, (State.epochMove_control huheld huroom).trans ?_, fun h => absurd hk (ne_true_of_eq_false h),
          fun _ => ⟨?_, fun hs => ?_, fun hs => ?_, fun hs => ?_⟩, fun _ h => absurd hre h⟩
        · rw [congrArg State.control hu]
          rfl
        · rw [State.noticeOf_epochMove]
        · rw [State.noticeOf_epochMove]
          exact TimeUnit.moveNotices_instep (hustate.trans hs)
        · rw [State.noticeOf_epochMove]
          exact TimeUnit.moveNotices_holdover (hustate.trans hs)
        · exact TimeUnit.moveNotices_still (hustate ▸ hs)

end

theorem State.currentPos_adoptEpoch_unknown {s : State} {y : Epoch} (hk : s.time.epochKnown = false) :
    (s.adoptEpoch y).currentPos =
      some { second := s.assembler.slotSecond + (y - s.time.second), slot := s.assembler.slot } := by
  rw [State.adoptEpoch_unknown hk]
  rfl

theorem State.currentPos_adoptEpoch_known {s : State} {y : Epoch} (hk : s.time.epochKnown = true) :
    (s.adoptEpoch y).currentPos = s.currentPos := by
  obtain ⟨_, _, _, _, _, _, _, _, _, _, ht, hslot⟩ := s.adoptEpoch_eq y
  rw [ht, hslot hk]
  unfold State.currentPos
  rw [if_pos rfl, if_pos hk]

/-- A timing cell taken (R75). -/
theorem exec_timingCell {s : State} {h : HandedCell} {rest : List HandedCell} (hq : s.toTiming = h :: rest) :
    exec .timingCell s = .next (({ s with toTiming := rest } : State).timingCell h) := by
  refine congrArg Host.Outcome.next ?_
  unfold State.takeTiming
  rw [hq]

theorem State.timingCell_malformed {s : State} {h : HandedCell} (hr : readTiming (h.item.cell.drop 4) = none) :
    s.timingCell h = s.countHanded h (fun c => { c with inconsistent := bump c.inconsistent }) := by
  unfold State.timingCell cellPayload
  simp only [hr]

theorem State.timingCell_inconsistent {s : State} {h : HandedCell} {p : TimingPayload}
    (hr : readTiming (h.item.cell.drop 4) = some p) (hx : p.epoch.toNat % 64 ≠ h.item.headStamp / 10000000) :
    s.timingCell h = s.countHanded h (fun c => { c with inconsistent := bump c.inconsistent }) := by
  unfold State.timingCell cellPayload
  simp only [hr]
  exact if_neg fun hc => hx (of_decide_eq_true hc)

theorem State.timingCell_consistent {s : State} {h : HandedCell} {p : TimingPayload}
    (hr : readTiming (h.item.cell.drop 4) = some p) (hx : p.epoch.toNat % 64 = h.item.headStamp / 10000000) :
    s.timingCell h = (s.takeParameters h.stream p).adoptEpoch
      (derivedSecond p.epoch h.item.headStamp h.item.arrivalTick (s.time.boundaries - h.item.arrivalBoundaries)) := by
  unfold State.timingCell cellPayload
  simp only [hr]
  exact if_pos (decide_eq_true hx)

/-- Settles O27, by what the payload gives: malformed, inconsistent, or a consistent cell, whose parameters are taken and
whose second is used. -/
theorem timingCell : Obligations.TimingCell := by
  unfold Obligations.TimingCell
  rintro h rest s p hq rfl n x y counted readopted joins
  refine ⟨fun hbad => ?_, fun hn hd hx => ?_, fun hn hd hx => ?_⟩
  · rw [exec_timingCell hq, State.timingCell_malformed (readTiming_malformed hbad)]
    rfl
  · rw [exec_timingCell hq, State.timingCell_inconsistent (readTiming_read hn hd) hx]
    rfl
  · obtain ⟨base, hbase⟩ : ∃ base : State, base = { s with toTiming := rest } := ⟨_, rfl⟩
    have hexec : exec .timingCell s =
        .next ((base.takeParameters h.stream (timingPayload (h.item.cell.drop 4))).adoptEpoch y) := by
      rw [exec_timingCell hq, State.timingCell_consistent (readTiming_read hn hd) hx, hbase]
      rfl
    obtain ⟨release, control, hu, hdn, hlast, hsrc⟩ :=
      base.takeParameters_eq h.stream (timingPayload (h.item.cell.drop 4))
    generalize hueq : base.takeParameters h.stream (timingPayload (h.item.cell.drop 4)) = u at *
    obtain ⟨second, mismatch, st, qc, ho, sv, slotSecond, control', output, held, ht, hslot⟩ := u.adoptEpoch_eq y
    have huk : u.time = s.time := by rw [hu, hbase]
    refine ⟨_, base.timingRecord h.stream (timingPayload (h.item.cell.drop 4)), hexec, ?_⟩
    have huassembler : u.assembler = s.assembler := by rw [hu, hbase]
    have husv : u.services = s.services := by rw [hu, hbase]
    have hupos : u.currentPos = s.currentPos := by rw [hu, hbase]; rfl
    have hjoins (clamped : List Notice) (hc : s.control.notices.length < 62 →
        u.control = { s.control with notices := s.control.notices ++ clamped }) (hlen : clamped.length ≤ 1) :
        joins (u.adoptEpoch y) clamped := by
      intro hh hr
      have hu' := hc hr
      obtain ⟨epoch, step, hj⟩ := State.adoptEpoch_joins (s := u) (y := y) (by rw [hu, hbase]; exact hh) (by
        rw [hu', List.length_append]; omega)
      unfold State.epochJoins State.readopts at hj
      rw [huk, hu'] at hj
      exact ⟨epoch, step, hj⟩
    subst hbase
    refine ⟨by rw [ht, hu], by rw [ht, hu]; exact hdn, by rw [ht, hu]; exact hlast, rfl, rfl, rfl, rfl, rfl,
      by rw [ht, hu]; exact hsrc, by rw [ht, hu], by rw [ht, hu], by rw [ht, hu], by rw [ht, hu], by rw [ht], fun hk => ?_,
      fun hk => ?_, fun k hk hs hfirst => ?_, fun hno => ?_, fun hk => ?_, fun hk hy => ?_, fun hk hy hm => ?_,
      fun hk hy hm => ?_, fun hstill => ?_⟩
    · rw [State.currentPos_adoptEpoch_known (s := u) (huk ▸ hk), hupos]
    · rw [State.currentPos_adoptEpoch_unknown (s := u) (huk ▸ hk), huassembler, huk]
      refine ⟨fun hs => ?_, fun hs => ?_⟩
      · rw [hs, show s.time.second + (y - s.time.second) = y by bv_omega]
      · rw [← hs, show s.assembler.slotSecond + (y - (s.assembler.slotSecond + 1)) = y - 1 by bv_omega]
    · have hf : findOverride s.site.siteId (readOverrides (h.item.cell.drop 4) n) =
        some (fieldInt32 (h.item.cell.drop 4) (11 + 6 * k)) := findOverride_first hk hs hfirst
      have hfound := hueq.symm.trans (State.takeParameters_found hf)
      have hused : clamp (-5000000) 5000000 (fieldInt32 (h.item.cell.drop 4) (11 + 6 * k)) =
          max (-5000000) (min 5000000 (fieldInt32 (h.item.cell.drop 4) (11 + 6 * k))) := clamp_eq _ (by decide)
      refine ⟨by rw [ht, hfound]; exact hused, by rw [ht, hfound], congrArg Option.isSome hf, ?_,
        fun heq => hjoins [] (fun hr => ?_) (Nat.zero_le 1), fun hne => hjoins _ (fun hr => ?_) (le_refl 1)⟩
      · rw [← hused]
        exact State.timingRecord_clamped hf
      · rw [hfound, List.append_nil]
        exact if_pos (hused.trans heq)
      · rw [hfound, ← hused]
        exact (if_neg (hused ▸ hne)).trans (congrArg State.control (State.raise_room _ (by exact Nat.lt_of_lt_of_le hr (by decide))))
    · have hf : findOverride s.site.siteId (readOverrides (h.item.cell.drop 4) n) = none := findOverride_absent hno
      have habsent := hueq.symm.trans (State.takeParameters_absent hf)
      refine ⟨by rw [ht, habsent], by rw [ht, habsent], ?_, ?_, hjoins [] (fun _ => ?_) (Nat.zero_le 1)⟩
      · exact congrArg Option.isSome hf
      · exact State.timingRecord_unclamped hf
      · rw [habsent, List.append_nil]
    · rw [State.adoptEpoch_unknown (s := u) (huk ▸ hk)]
      exact ⟨rfl, rfl, husv⟩
    · rw [State.adoptEpoch_same (s := u) (huk ▸ hk) (huk ▸ hy)]
      exact ⟨(congrArg TimeUnit.second huk :).trans hy.symm, rfl, husv⟩
    · rw [State.adoptEpoch_counted (s := u) (huk ▸ hk) (huk ▸ hy) (huk ▸ hm)]
      exact ⟨(congrArg TimeUnit.second huk :), by rw [huk], husv⟩
    · have hstate : (u.readopting y).time.stepState = s.time.stepState := (congrArg TimeUnit.stepState huk :)
      rw [State.adoptEpoch_readopted (s := u) (huk ▸ hk) (huk ▸ hy) (huk ▸ hm)]
      obtain ⟨_, _, _, _, _, _, he, _⟩ := (u.readopting y).epochMove_eq
      refine ⟨by rw [he]; rfl, by rw [he]; rfl, fun k z hz => ?_, fun hs => ?_, fun hs => ?_, fun hs => ?_⟩
      · rw [he] at hz
        exact State.anchor_invalidateAnchors (u.readopting y) k z hz
      · rw [State.epochMove_instep (hstate.trans hs)]
        exact ⟨rfl, rfl⟩
      · rw [State.epochMove_holdover (hstate.trans hs)]
        exact ⟨rfl, rfl, rfl⟩
      · rw [State.epochMove_still (hstate ▸ hs)]
        exact hstate
    · rw [← huk] at hstill ⊢
      cases hk : u.time.epochKnown with
      | false =>
        rw [State.adoptEpoch_unknown hk]
        exact ⟨rfl, rfl, rfl⟩
      | true =>
        by_cases hy : y = u.time.second
        · rw [State.adoptEpoch_same hk hy]
          exact ⟨rfl, rfl, rfl⟩
        · have hm := (hstill.resolve_left (ne_false_of_eq_true hk)).resolve_left hy
          rw [State.adoptEpoch_counted hk hy hm]
          exact ⟨rfl, rfl, rfl⟩

end Sys2Proof.Machine

/-! SUPPORT. The slot plan's requests, the armed swap at a boundary, and SITE.CONFIG (R77, R106 to R110, R114, R115). -/

namespace Sys2Proof.Machine

/-! ## Entries written into a bank (R106) -/

theorem PlanBank.entry_write_same (b : PlanBank) (hw : b.entries.wf = true) (k : Nat) (e : PlanEntry) :
    (b.write k e).entry k = e := by
  unfold PlanBank.entry PlanBank.write
  cases e with
  | null => rw [Table.get_del_same k hw]; rfl
  | site => rw [Table.get_put_same]; rfl
  | spare => rw [Table.get_put_same]; rfl

theorem PlanBank.entry_write_other (b : PlanBank) {k j : Nat} (h : j ≠ k) (e : PlanEntry) :
    (b.write k e).entry j = b.entry j := by
  unfold PlanBank.entry PlanBank.write
  cases e with
  | null => rw [Table.get_del_other _ h]
  | site => rw [Table.get_put_other _ _ h]
  | spare => rw [Table.get_put_other _ _ h]

theorem PlanBank.write_wf {b : PlanBank} (hw : b.entries.wf = true) (k : Nat) (e : PlanEntry) :
    (b.write k e).entries.wf = true := by
  cases e with
  | null => exact Table.del_wf k hw
  | site => exact Table.put_wf k _ hw
  | spare => exact Table.put_wf k _ hw

/-- Entries written in a run stand in their order; the others stay. -/
theorem PlanBank.entry_writeRun (es : List PlanEntry) (b : PlanBank) (hw : b.entries.wf = true) (k i : Nat) :
    (b.writeRun k es).entry i =
      if k ≤ i ∧ i < k + es.length then es.getD (i - k) .null else b.entry i := by
  induction es generalizing b k with
  | nil => exact (if_neg (by simp only [List.length_nil]; omega)).symm
  | cons e es ih =>
    rw [PlanBank.writeRun, ih (b.write k e) (PlanBank.write_wf hw k e) (k + 1), List.length_cons]
    rcases Nat.lt_trichotomy i k with hlt | rfl | hgt
    · rw [if_neg (by omega), if_neg (by omega), PlanBank.entry_write_other b (by omega)]
    · rw [if_neg (by omega), if_pos (by omega), PlanBank.entry_write_same b hw, Nat.sub_self]
      rfl
    · rw [PlanBank.entry_write_other b (by omega), show i - k = (i - (k + 1)) + 1 by omega, List.getD_cons_succ]
      exact if_congr (by omega) rfl rfl

theorem Assembler.bank_setBank_same (a : Assembler) (one : Bool) (b : PlanBank) : (a.setBank one b).bank one = b := by
  cases one <;> rfl

theorem Assembler.bank_setBank_other (a : Assembler) (one : Bool) (b : PlanBank) :
    (a.setBank one b).bank (!one) = a.bank (!one) := by
  cases one <;> rfl

theorem Assembler.setBank_eq (a : Assembler) (one : Bool) (b : PlanBank) :
    ∃ bank0 bank1, a.setBank one b = { a with bank0 := bank0, bank1 := bank1 } := by
  cases one with
  | true => exact ⟨_, _, rfl⟩
  | false => exact ⟨_, _, rfl⟩

/-! ## PLAN.WRITE and PLAN.SWAP (R106, R107) -/

section

variable {s : State}

theorem handlePlanWrite_unread {b : PlanWriteBody} (h : readPlanWrite b = none) :
    handlePlanWrite b s = .refuse .range := by
  unfold handlePlanWrite
  rw [h]

/-- A bank as PLAN.WRITE leaves it (R106). -/
def PlanBank.planned (first : Nat) (entries : List PlanEntry) (length : Option Nat) (old : PlanBank) : PlanBank :=
  { old.writeRun first entries with length := length.getD old.length }

theorem handlePlanWrite_read {b : PlanWriteBody} {bank : Bool} {entries : List PlanEntry} {length : Option Nat}
    (h : readPlanWrite b = some (bank, entries, length)) : handlePlanWrite b s =
      if bank = s.assembler.activeOne then .refuse .activeBank
      else if s.assembler.armedSwap.isSome then .refuse .pending
      else .ok { s with
        assembler := s.assembler.setBank bank ((s.assembler.bank bank).planned b.first.toNat entries length) } [] := by
  unfold handlePlanWrite
  rw [h]
  rfl

/-- PLAN.SWAP's checks in their order (R107). -/
theorem answered_planSwap (kind tag : BitVec 16) (S : Epoch) : s.answered kind tag (handlePlanSwap S s) =
    if s.assembler.armedSwap ≠ none then s.refusalWaits kind tag .pending
    else if s.time.epochKnown = false then s.refusalWaits kind tag .untimed
    else if (S - s.time.second).toInt < 1 then s.refusalWaits kind tag .late
    else if 3600 < (S - s.time.second).toInt then s.refusalWaits kind tag .range
    else ({ s with assembler := { s.assembler with armedSwap := some S } } : State).okWaits kind tag [] := by
  have hk : (!s.time.epochKnown) = true ↔ s.time.epochKnown = false := by rw [Bool.not_eq_true']
  unfold handlePlanSwap
  simp only [apply_ite (s.answered kind tag), State.answered_refuse, State.answered_ok]
  exact if_congr Option.isSome_iff_ne_none rfl (if_congr hk rfl rfl)

end

/-- Settles O33: each request's checks in their order, and what an accepted one writes. -/
theorem planRequests : Obligations.PlanRequests := by
  unfold Obligations.PlanRequests
  refine ⟨fun tag b s hlen hmay => ?_, fun tag S s hmay => ?_, fun tag s hmay => ?_, fun tag cells s hlen hcells hmay => ?_⟩
  · intro inRange bank entries length
    have hw : (Instr.planWrite tag b).wellFormed = true := decide_eq_true hlen
    have hread (hin : inRange) := handlePlanWrite_read (s := s) (readPlanWrite_some hin.1 hin.2.1 hin.2.2.1 hin.2.2.2)
    refine ⟨fun hout => ?_, fun hin ha => ?_, fun hin ha hs => ?_, fun hin ha hs hwf => ?_⟩
    · exact next_request_refuse hmay hw (handlePlanWrite_unread (readPlanWrite_none hout))
    · exact next_request_refuse hmay hw ((hread hin).trans (if_pos ha))
    · exact next_request_refuse hmay hw
        ((hread hin).trans ((if_neg ha).trans (if_pos (Option.isSome_iff_ne_none.mpr hs))))
    · refine ⟨_, next_request_ok hmay hw ((hread hin).trans ((if_neg ha).trans (if_neg (by rw [hs]; decide)))),
        Assembler.bank_setBank_other _ _ _, ?_, fun i => ?_, ?_⟩
      · rw [Assembler.bank_setBank_same]
        rfl
      · rw [Assembler.bank_setBank_same]
        exact PlanBank.entry_writeRun entries (s.assembler.bank bank) hwf b.first.toNat i
      · obtain ⟨bank0, bank1, he⟩ := s.assembler.setBank_eq (decide (b.bank = 1#8))
          ((s.assembler.bank bank).planned b.first.toNat entries length)
        rw [he]
        exact ⟨rfl, rfl, rfl⟩
  · refine congrArg Host.Outcome.next ?_
    rw [State.request_handled _ _ _ hmay rfl, answered_planSwap]
  · have hreply : encFlag s.assembler.armedSwap.isSome = [if s.assembler.armedSwap = none then 0 else 1] := by
      cases s.assembler.armedSwap with
      | none => rfl
      | some S => rfl
    exact (next_request_ok hmay rfl rfl).trans (by rw [hreply])
  · refine next_request_ok hmay ?_ rfl
    rw [Instr.wellFormed, Bool.and_eq_true, decide_eq_true_eq, List.all_eq_true]
    exact ⟨hlen, fun c hc => beq_iff_eq.mpr (hcells c hc)⟩

/-! ## The armed swap at a boundary (R109) -/

theorem State.swapAtBoundary_waits {s : State} {S : Epoch} (ha : s.assembler.armedSwap = some S)
    (h : (s.time.second - S).toInt < 0) : s.swapAtBoundary = s := by
  unfold State.swapAtBoundary
  rw [ha]
  exact if_pos h

theorem State.swapAtBoundary_swaps {s : State} {S : Epoch} (ha : s.assembler.armedSwap = some S)
    (h : 0 ≤ (s.time.second - S).toInt) : s.swapAtBoundary =
      ({ s with assembler := { s.assembler with activeOne := !s.assembler.activeOne, armedSwap := none } } : State).raise
        (.planSwap (!s.assembler.activeOne) S s.time.second (decide (0 < (s.time.second - S).toInt))) := by
  unfold State.swapAtBoundary
  rw [ha]
  exact if_neg (not_lt.mpr h)

/-- Settles O34: the boundary counts its second on, and then the armed swap waits or is carried out. -/
theorem planSwapAtBoundary : Obligations.PlanSwapAtBoundary := by
  unfold Obligations.PlanSwapAtBoundary
  intro s S hd hh hp hs ha hr
  have heq : s.takeSecondBoundary = s.nextSecond.swapAtBoundary := by
    rw [State.takeSecondBoundary_advance hp, State.countHoldover_other (s := s.nextSecond) hs]
  refine ⟨_, exec_secondBoundary hd hh, ?_, fun hneg => ?_, fun hpos => ?_⟩
  · rw [heq, State.swapAtBoundary_time]
    rfl
  · rw [heq, State.swapAtBoundary_waits (s := s.nextSecond) ha hneg]
    exact ⟨rfl, rfl⟩
  · rw [heq, State.swapAtBoundary_swaps (s := s.nextSecond) ha hpos, State.raise_room]
    · exact ⟨rfl, _, rfl, rfl⟩
    · exact hr

/-! ## SITE.CONFIG (R77, R114, R115) -/

section

variable {s : State} {new : SiteConfig}

theorem State.someActive_iff : s.someActive = true ↔ ∃ j r, (j, r) ∈ s.insertions ∧ r.state ≠ .done := by
  simp [State.someActive, Table.someSuch_iff]

/-- What a change of P leaves and what it clears (R91, R115). -/
def State.sitePeriod (new : SiteConfig) (s : State) : State :=
  if new.period ≠ s.site.period then ({ s with site := new } : State).changePeriod else { s with site := new }

theorem State.changeOutput_eq (s : State) : ∃ output freeCount,
    s.changeOutput = { s with output := output, freeCount := freeCount } ∧ output.permit = s.output.permit := by
  unfold State.changeOutput
  split
  · exact ⟨_, _, rfl, rfl⟩
  · split
    · exact ⟨_, _, rfl, rfl⟩
    · exact ⟨_, _, rfl, rfl⟩

/-- A slot that was taken with a number keeps it (R95, R96). -/
theorem State.slotNumber_taken {g : Nat} (h : s.assembler.slotNumber = some g) :
    s.slotNumber = s.currentPos.map (fun _ => g) := by
  unfold State.slotNumber
  simp only [h, Option.getD_some]

/-- An accepted SITE.CONFIG up to its output and the permit. -/
theorem State.applySite_eq (new : SiteConfig) (s : State) : ∃ output freeCount, s.applySite new =
    ({ (s.sitePeriod new).followSite with output := output, freeCount := freeCount } : State).dropPermit ∧
      output.permit = s.output.permit := by
  have hpermit : (s.sitePeriod new).followSite.output.permit = s.output.permit := by
    unfold State.sitePeriod
    split
    · rfl
    · rfl
  obtain ⟨output, freeCount, ho, hpo⟩ := (s.sitePeriod new).followSite.changeOutput_eq
  by_cases hout : new.output ≠ s.site.output
  · refine ⟨output, freeCount, ?_, hpo.trans hpermit⟩
    rw [← ho]
    exact congrArg State.dropPermit (if_pos hout)
  · refine ⟨_, _, congrArg State.dropPermit (if_neg hout), hpermit⟩

theorem handleSiteConfig_read {b : SiteConfigBody} (h : readSiteConfig b = some new) : handleSiteConfig b s =
    if new.period ≠ s.site.period ∧ (s.site.output || new.output || s.someActive) = true then .refuse .busy
    else .ok (s.applySite new) [] := by
  unfold handleSiteConfig
  rw [h]

theorem handleSiteConfig_unread {b : SiteConfigBody} (h : readSiteConfig b = none) :
    handleSiteConfig b s = .refuse .range := by
  unfold handleSiteConfig
  rw [h]

theorem State.site_sitePeriod (new : SiteConfig) (s : State) : ∃ ring slotDue services, s.sitePeriod new =
    { s with site := new, ring := ring, slotDue := slotDue, services := services } := by
  unfold State.sitePeriod
  split
  · exact ⟨_, _, _, rfl⟩
  · exact ⟨_, _, _, rfl⟩

end

/-- Settles O32, by the fields' ranges, and whether P changes. -/
theorem siteConfig : Obligations.SiteConfig := by
  unfold Obligations.SiteConfig
  intro tag b s hmay inRange new
  have hread (hin : inRange) := handleSiteConfig_read (s := s) ((readSiteConfig_eq b).trans (if_pos hin))
  refine ⟨fun hout => ?_, fun hin hfree => ?_, fun hin hp hbusy => ?_⟩
  · exact next_request_refuse hmay rfl (handleSiteConfig_unread ((readSiteConfig_eq b).trans (if_neg hout)))
  · have hok : ¬(new.period ≠ s.site.period ∧ (s.site.output || new.output || s.someActive) = true) := by
      rintro ⟨hp, hb⟩
      obtain ⟨ho, hn, hi⟩ := hfree.resolve_left hp
      rw [ho, hn, Bool.or_self, Bool.false_or, State.someActive_iff] at hb
      obtain ⟨j, r, hm, hr⟩ := hb
      exact hr (hi j r hm)
    refine ⟨_, next_request_ok hmay rfl ((hread hin).trans (if_neg hok)), ?_⟩
    obtain ⟨output, freeCount, heq, hpermit⟩ := s.applySite_eq new
    obtain ⟨ring, slotDue, services, hsp⟩ := s.site_sitePeriod new
    have happly : s.applySite new = ({ s with
        site := new, ring := ring, slotDue := slotDue, services := services, release := (s.sitePeriod new).followSite.release
        output := output, freeCount := freeCount } : State).dropPermit := by
      rw [heq, hsp]
      rfl
    show (s.applySite new).site = new ∧ _
    refine ⟨by rw [happly]; rfl, by rw [happly, hsp]; rfl, by rw [happly, hsp]; rfl, ?_, by rw [happly]; rfl,
      by rw [happly]; rfl, by rw [happly]; rfl, by rw [happly]; rfl, fun g hg => ?_, fun hp => ?_, fun hp => ?_⟩
    · rw [happly, State.permit_dropPermit]
      exact congrArg (· && _) hpermit
    · rw [happly, State.slotNumber_taken hg]
      exact State.slotNumber_taken (by exact hg)
    · have hsame := hsp.symm.trans (if_neg (not_not.mpr hp) : s.sitePeriod new = { s with site := new })
      rw [happly]
      exact ⟨(congrArg State.ring hsame :), (congrArg State.services hsame :)⟩
    · have hchanged := hsp.symm.trans (if_pos hp : s.sitePeriod new = ({ s with site := new } : State).changePeriod)
      rw [happly]
      refine ⟨(congrArg State.ring hchanged :), fun k x hx => ?_⟩
      exact State.anchor_invalidateAnchors { s with
        site := new, ring := []
        slotDue := s.slotDue && (s.secondDue || decide (s.time.tick % new.period = 0)) } k x
          ((congrArg (fun t : State => t.services.get k) hchanged).symm.trans hx)
  · refine next_request_refuse hmay rfl ((hread hin).trans (if_pos ⟨hp, ?_⟩))
    simp only [Bool.or_eq_true, State.someActive_iff, or_assoc]
    exact hbusy

end Sys2Proof.Machine

/-! SUPPORT. What the part does of itself on an empty queue: the oscillator's tick, the events that have come about and the
work that waits (log entries 1 and 2). -/

namespace Sys2Proof.Machine

section

variable {s : State}

/-! ## A step on an empty queue -/

theorem step_idle (h : s.pending = []) : step s = .next s.idle := by
  unfold step
  rw [h]

theorem State.idle_ticks (hd : s.dueEvents = []) (hw : s.waiting = []) : s.idle = s.tick := by
  unfold State.idle
  rw [hd, hw]

theorem State.idle_events (hd : s.dueEvents ≠ []) :
    s.idle = s.post (s.dueEvents ++ freePart s.freeCount 0 s.waiting) := by
  unfold State.idle
  cases h : s.dueEvents with
  | nil => exact absurd h hd
  | cons d ds => rfl

theorem State.idle_works (hd : s.dueEvents = []) (hw : s.waiting ≠ []) : s.idle =
    if freePart s.freeCount 0 s.waiting = [] then ({ s with freeCount := s.freeCount + 1 } : State).tick
    else s.post (freePart s.freeCount 0 s.waiting) := by
  unfold State.idle
  rw [hd]
  cases h : s.waiting with
  | nil => exact absurd h hw
  | cons w ws =>
    cases hp : freePart s.freeCount 0 (w :: ws) with
    | nil => rw [if_pos rfl]; simp only [hp]
    | cons c cs => rw [if_neg (List.cons_ne_nil c cs)]; simp only [hp]

/-! ## What has come about, and what waits -/

theorem mem_onlyIf {b : Bool} {i j : Instr} : i ∈ onlyIf b j ↔ i = j ∧ b = true := by
  unfold onlyIf
  cases b <;> simp

theorem exists_link_iff (p : Link → Prop) : (∃ l, p l) ↔ p .a ∨ p .b :=
  ⟨fun ⟨l, h⟩ => match l, h with
    | .a, h => Or.inl h
    | .b, h => Or.inr h, fun h => h.elim (fun h => ⟨.a, h⟩) (fun h => ⟨.b, h⟩)⟩

theorem State.mem_dueEvents (s : State) (i : Instr) : i ∈ s.dueEvents ↔
    (i = .secondBoundary ∧ s.secondDue = true) ∨ (i = .slotBoundary ∧ s.slotDue = true) ∨
      (i = .referenceLost ∧ s.time.refTimer = some 0) ∨ (∃ l, i = .linkTimeout l ∧ (s.link l).timer = some 0) ∨
      ∃ k r, i = .returnLimitExpiry k ∧ (k, r) ∈ s.insertions ∧ r.timer = some 0 := by
  have hexpired : i ∈ (s.insertions.keep (fun _ r => decide (r.timer = some 0))).map (fun e => .returnLimitExpiry e.1) ↔
      ∃ k r, i = .returnLimitExpiry k ∧ (k, r) ∈ s.insertions ∧ r.timer = some 0 := by
    simp only [Table.keep, List.mem_map, List.mem_filter, decide_eq_true_eq]
    constructor
    · rintro ⟨⟨k, r⟩, ⟨hm, ht⟩, rfl⟩
      exact ⟨k, r, rfl, hm, ht⟩
    · rintro ⟨k, r, rfl, hm, ht⟩
      exact ⟨(k, r), ⟨hm, ht⟩, rfl⟩
  rw [exists_link_iff]
  simp only [State.dueEvents, List.mem_append, mem_onlyIf, decide_eq_true_eq, hexpired, or_assoc]
  rfl

theorem ReplyPhase.mem_work (p : ReplyPhase) (i : Instr) : i ∈ p.work ↔
    p = .taken i ∨ (i = .replyMadeReady ∧ ∃ kind tag code fields, p = .handled kind tag code fields) := by
  cases p with
  | none => simp [ReplyPhase.work]
  | taken j => simp [ReplyPhase.work, eq_comm]
  | handled kind tag code fields => simp [ReplyPhase.work]
  | ready frame => simp [ReplyPhase.work]

theorem not_isEmpty_iff {α : Type} (xs : List α) : (!xs.isEmpty) = true ↔ xs ≠ [] := by
  cases xs <;> simp

theorem State.mem_waiting (s : State) (i : Instr) : i ∈ s.waiting ↔
    (∃ l, i = .cellTake l ∧ (s.link l).handOn ≠ []) ∨ (i = .releaseComputation ∧ s.toRelease ≠ []) ∨
      (i = .timingCell ∧ s.toTiming ≠ []) ∨ (i = .cueTake ∧ s.toCue ≠ []) ∨ s.control.reply = .taken i ∨
      (i = .replyMadeReady ∧ ∃ kind tag code fields, s.control.reply = .handled kind tag code fields) := by
  rw [exists_link_iff]
  simp only [State.waiting, List.mem_append, mem_onlyIf, not_isEmpty_iff, ReplyPhase.mem_work, or_assoc]
  rfl

/-! ## One tick -/

/-- The Output Port one tick on (R111, R112). -/
theorem State.outputTick_eq (s : State) : ∃ output freeCount,
    s.outputTick = { s with output := output, freeCount := freeCount } := by
  unfold State.outputTick
  split
  · exact ⟨_, _, rfl⟩
  · split
    · exact ⟨_, _, rfl⟩
    · exact ⟨_, _, rfl⟩

theorem State.outputTick_presenting {b : Byte} {rest : Bytes} (h : s.output.rest = b :: rest) :
    s.outputTick.output = { s.output with rest := rest, data := b, strobe := false, mark := false } := by
  unfold State.outputTick
  rw [h]

theorem State.outputTick_over (h : s.output.rest = []) : s.outputTick.output.rest = [] ∧
    s.outputTick.output.valid = false ∧ s.outputTick.output.strobe = false ∧ s.outputTick.output.mark = false ∧
    s.outputTick.output.permit = s.output.permit ∧ (s.site.output = false → s.outputTick.output.data = 0) := by
  unfold State.outputTick
  rw [h]
  cases ho : s.site.output with
  | true => exact ⟨h, rfl, rfl, rfl, rfl, (nomatch ·)⟩
  | false => exact ⟨h, rfl, rfl, rfl, rfl, fun _ => rfl⟩

/-- The timers one tick on (R6, R8, R33, R161). -/
def State.timersTick (s : State) : State :=
  { s with
    time := s.time.timersTick
    linkA := { s.linkA with timer := timerTick s.linkA.timer }
    linkB := { s.linkB with timer := timerTick s.linkB.timer }
    insertions := s.insertions.mapAll (fun r => { r with timer := timerTick r.timer }) }

theorem State.countTick_counts (h : s.time.tick + 1 < 10000000) : s.countTick = { s with
    time := { s.time with tick := s.time.tick + 1 }
    slotDue := decide ((s.time.tick + 1) % s.site.period = 0) } := if_neg (not_le.mpr h)

theorem State.countTick_ends (h : 10000000 ≤ s.time.tick + 1) :
    s.countTick = { s with secondDue := true, slotDue := true } := if_pos h

/-- A tick: what the tick count writes besides the timers and the Output Port. -/
theorem State.tick_eq (s : State) : ∃ output freeCount tick secondDue slotDue,
    s.timersTick.outputTick = { s.timersTick with output := output, freeCount := freeCount } ∧
    s.tick = { s.timersTick with
      time := { s.timersTick.time with tick := tick }
      output := output
      freeCount := freeCount
      secondDue := secondDue
      slotDue := slotDue } ∧
    (s.time.tick + 1 < 10000000 → tick = s.time.tick + 1 ∧ slotDue = decide ((s.time.tick + 1) % s.site.period = 0) ∧
      secondDue = s.secondDue) ∧
    (10000000 ≤ s.time.tick + 1 → tick = s.time.tick ∧ secondDue = true ∧ slotDue = true) := by
  obtain ⟨output, freeCount, ho⟩ := s.timersTick.outputTick_eq
  have htick : s.tick = s.timersTick.outputTick.countTick := rfl
  rcases Nat.lt_or_ge (s.time.tick + 1) 10000000 with h | h
  · refine ⟨output, freeCount, _, _, _, ho, ?_, fun _ => ⟨rfl, rfl, rfl⟩, fun h' => absurd h (not_lt.mpr h')⟩
    rw [htick, ho, State.countTick_counts (by exact h)]
    rfl
  · refine ⟨output, freeCount, _, _, _, ho, ?_, fun h' => absurd h' (not_lt.mpr h), fun _ => ⟨rfl, rfl, rfl⟩⟩
    rw [htick, ho, State.countTick_ends (by exact h)]
    rfl

end

/-- Settles O31: the step on an empty queue by what has come about and what waits, and the tick. -/
theorem emptyQueueTicks : Obligations.EmptyQueueTicks := by
  unfold Obligations.EmptyQueueTicks
  refine ⟨fun s hp hd hw => ?_, fun s hp hd => ?_, fun s hp hd hw => ?_, fun s i => ⟨s.mem_dueEvents i, s.mem_waiting i⟩,
    fun s => ?_⟩
  · rw [step_idle hp, State.idle_ticks hd hw]
  · refine ⟨freePart s.freeCount 0 s.waiting, _, freePart_sublist _ _ _, freeOrder_perm s.freeCount 64 _, ?_⟩
    rw [step_idle hp, State.idle_events hd]
    rfl
  · refine ⟨freePart s.freeCount 0 s.waiting, _, freePart_sublist _ _ _, freeOrder_perm s.freeCount 64 _, fun h => ?_,
      fun h => ?_⟩
    · rw [step_idle hp, State.idle_works hd hw, if_pos h]
    · rw [step_idle hp, State.idle_works hd hw, if_neg h]
      rfl
  · obtain ⟨output, freeCount, tick, secondDue, slotDue, ho, ht, hcounts, hends⟩ := s.tick_eq
    have hout : s.tick.output = s.timersTick.outputTick.output := by rw [ht, ho]
    refine ⟨by rw [ht]; rfl, fun h => ?_, fun h => ?_, by rw [ht]; rfl, fun l => ?_, fun k => ?_, fun b rest h => ?_, fun h => ?_⟩
    · obtain ⟨h1, h2, h3⟩ := hcounts h
      rw [ht]
      exact ⟨h1, by rw [h2, decide_eq_true_eq], h3⟩
    · rw [ht]
      exact hends h
    · rw [ht]
      cases l <;> rfl
    · rw [ht]
      exact Table.get_mapAll s.insertions (fun r => { r with timer := timerTick r.timer }) k
    · rw [hout]
      exact State.outputTick_presenting (s := s.timersTick) h
    · rw [hout]
      exact State.outputTick_over (s := s.timersTick) h

end Sys2Proof.Machine

/-! SUPPORT. What the Insertion Engine's updates leave as it stands, and the length of the cell of a slot (R97, R172). -/

namespace Sys2Proof.Machine

/-! ## Updates of the Insertion Engine -/

/-- Nothing but the Insertion Engine's own tables, the services, the holds and the notices differs. -/
def State.Inserts (s t : State) : Prop :=
  t = { s with
    services := t.services, insertions := t.insertions, channels := t.channels, reels := t.reels, clips := t.clips
    control := t.control }

namespace State.Inserts

variable {s t : State}

theorem refl (s : State) : State.Inserts s s := Eq.refl s

theorem trans {u : State} (h : State.Inserts s t) (h' : State.Inserts t u) : State.Inserts s u := by
  unfold State.Inserts at h h' ⊢
  rw [h'.trans (congrArg (fun v : State => ({ v with
    services := u.services, insertions := u.insertions, channels := u.channels, reels := u.reels, clips := u.clips
    control := u.control } : State)) h)]

theorem raise (d : NoticeDetail) (h : State.Inserts s t) : State.Inserts s (t.raise d) := h.trans (Eq.refl _)

theorem putRecord (k : Nat) (r : Insertion) (h : State.Inserts s t) : State.Inserts s (t.putRecord k r) :=
  h.trans (Eq.refl _)

theorem updateService (k : Nat) (f : ServiceEntry → ServiceEntry) (h : State.Inserts s t) :
    State.Inserts s (t.updateService k f) := h.trans (Eq.refl _)

theorem setPlay (c : Option Nat) (p : Playback) (h : State.Inserts s t) : State.Inserts s (t.setPlay c p) :=
  h.trans (Eq.refl _)

theorem enterDone (k : Nat) (r : Insertion) (result : Result) (h : State.Inserts s t) :
    State.Inserts s (t.enterDone k r result) := h.trans (by
  rw [State.enterDone_frame]
  exact Eq.refl _)

theorem finish (k : Nat) (r : Insertion) (result : Result) (h : State.Inserts s t) :
    State.Inserts s (t.finish k r result) := (h.enterDone k r result).raise _

theorem endReturn (k : Nat) (r : Insertion) (result : Result) (h : State.Inserts s t) :
    State.Inserts s (t.endReturn k r result) := (h.updateService r.service _).finish k r result

theorem toReturning (k : Nat) (r : Insertion) (p : Playback) (cause : BreakCause) (h : State.Inserts s t) :
    State.Inserts s (t.toReturning k r p cause) := h.trans (Eq.refl _)

theorem takeBreak (k : Nat) (cause : BreakCause) (result : Result) (h : State.Inserts s t) :
    State.Inserts s (t.takeBreak k cause result) := by
  unfold State.takeBreak
  split
  · exact h
  · split
    · unfold State.exitLocal
      split
      · exact h.toReturning _ _ _ _
      · exact h.trans (Eq.refl _)
    · exact h
    · exact h

theorem walkFrom (k step : Nat) (gC : Pos) (h : State.Inserts s t) : State.Inserts s (t.walkFrom k step gC) := by
  unfold State.walkFrom
  split
  · exact h
  · split
    · exact h
    · dsimp only
      split
      · exact h.setPlay _ _
      · split
        · exact (h.setPlay _ _).takeBreak _ _ _
        · exact h.setPlay _ _
      · split
        · exact (h.setPlay _ _).takeBreak _ _ _
        · exact h.setPlay _ _

theorem spliceStart (k : Nat) (r : Insertion) (gS : Pos) (h : State.Inserts s t) :
    State.Inserts s (t.spliceStart k r gS) := by
  unfold State.spliceStart
  split
  · exact h.finish _ _ _
  · exact ((((h.setPlay _ _).updateService _ _).putRecord _ _).raise _).walkFrom _ _ _

theorem channelBoundary (k : Nat) (r : Insertion) (h : State.Inserts s t) :
    State.Inserts s (t.channelBoundary k r) := by
  have hmove (u : State) (ended : Bool) (hu : State.Inserts s u) : State.Inserts s (u.moveOn k ended) := by
    unfold State.moveOn
    split
    · split
      · split
        · split
          · exact hu.toReturning _ _ _ _
          · exact hu
        · split
          · exact hu.walkFrom _ _ _
          · exact hu
      · exact hu
      · exact hu
    · exact hu
  unfold State.channelBoundary
  split
  · exact h
  · next p _ =>
    have hend : State.Inserts s (t.endPlay r p).1 := by
      unfold State.endPlay
      split
      · exact h.setPlay _ _
      · exact h
    refine hmove _ _ ?_
    unfold State.reachBreak
    split
    · exact hend.takeBreak _ _ _
    · exact hend

theorem recordBoundary (k : Nat) (h : State.Inserts s t) : State.Inserts s (t.recordBoundary k) := by
  unfold State.recordBoundary
  split
  · exact h
  · split
    · split
      · exact h.spliceStart _ _ _
      · exact h
    · exact h.channelBoundary _ _
    · exact h

theorem insertionBoundary (h : State.Inserts s t) : State.Inserts s t.insertionBoundary := by
  unfold State.insertionBoundary
  induction List.range 16 generalizing t with
  | nil => exact h
  | cons k ks ih => exact ih (h.recordBoundary k)

theorem giveCell (d : DueCell) (h : State.Inserts s t) : State.Inserts s (t.giveCell d) := by
  have hexit (u : State) (r : Insertion) (p : Playback) (hu : State.Inserts s u) :
      State.Inserts s (u.examineExit d r p) := by
    unfold State.examineExit
    split
    · exact hu.toReturning _ _ _ _
    · exact hu
  unfold State.giveCell
  dsimp only
  refine hexit _ _ _ ?_
  split
  · exact (((h.setPlay _ _).putRecord _ _).updateService _ _).raise _
  · exact ((h.setPlay _ _).putRecord _ _).updateService _ _

theorem serviceCell (k : Nat) (cell : Bytes) (h : State.Inserts s t) : State.Inserts s (t.serviceCell k cell).1 := by
  have hpass (u : State) (hu : State.Inserts s u) : State.Inserts s (u.passOn k cell).1 := by
    unfold State.passOn
    split
    · exact hu.updateService _ _
    · exact hu
  have hnull (u : State) (record : Nat) (hu : State.Inserts s u) : State.Inserts s (u.countNull k record) :=
    hu.trans (Eq.refl _)
  unfold State.serviceCell
  split
  · unfold State.vacated
    split
    · exact (h.updateService _ _).giveCell _
    · exact hnull _ _ (h.updateService _ _)
  · unfold State.returningCell
    dsimp only
    split
    · exact hpass _ (h.endReturn _ _ _)
    · exact hnull _ _ (h.updateService _ _)
  all_goals exact hpass _ h

theorem networkCell (g : Nat) (e : RingEntry) (h : State.Inserts s t) : State.Inserts s (t.networkCell g e).1 := by
  unfold State.networkCell
  split
  · exact (h.updateService _ _).serviceCell _ _
  all_goals exact h

end State.Inserts

/-! ## The cell of a slot -/

/-- Nothing but what forming a slot's cell writes differs. -/
def State.Forms (s t : State) : Prop :=
  t = { s with
    streams := t.streams, services := t.services, insertions := t.insertions, channels := t.channels, reels := t.reels
    clips := t.clips, control := t.control, ring := t.ring
    assembler := { s.assembler with pointer := t.assembler.pointer, lastGranted := t.assembler.lastGranted } }

section

variable {s t : State} {g k : Nat} {e : RingEntry} {cell : Bytes}

theorem State.Inserts.forms (h : State.Inserts s t) : State.Forms s t := by
  unfold State.Inserts at h
  unfold State.Forms
  rw [h]

theorem State.Forms.trans {u : State} (h : State.Forms s t) (h' : State.Forms t u) : State.Forms s u := by
  unfold State.Forms at h h' ⊢
  rw [h'.trans (congrArg (fun v : State => ({ v with
    streams := u.streams, services := u.services, insertions := u.insertions, channels := u.channels, reels := u.reels
    clips := u.clips, control := u.control, ring := u.ring
    assembler := { v.assembler with pointer := u.assembler.pointer, lastGranted := u.assembler.lastGranted } } :
      State)) h)]

theorem State.Forms.time (h : State.Forms s t) : t.time = s.time := (congrArg State.time h :)

theorem State.Forms.site (h : State.Forms s t) : t.site = s.site := (congrArg State.site h :)

theorem State.Forms.slotDue (h : State.Forms s t) : t.slotDue = s.slotDue := (congrArg State.slotDue h :)

theorem State.Forms.secondDue (h : State.Forms s t) : t.secondDue = s.secondDue := (congrArg State.secondDue h :)

theorem State.Forms.heldNotices (h : State.Forms s t) : t.heldNotices = s.heldNotices := (congrArg State.heldNotices h :)

theorem State.Forms.slot (h : State.Forms s t) : t.assembler.slot = s.assembler.slot :=
  congrArg (fun u => u.assembler.slot) h

theorem State.Forms.takenNumber (h : State.Forms s t) : t.assembler.slotNumber = s.assembler.slotNumber :=
  congrArg (fun u => u.assembler.slotNumber) h

theorem State.Forms.currentPos (h : State.Forms s t) : t.currentPos = s.currentPos := (congrArg State.currentPos h :)

theorem State.siteCell_forms (s : State) : State.Forms s s.siteCell.1 := by
  unfold State.siteCell
  split
  · exact rfl
  · exact rfl

theorem State.planCell_forms (s : State) : State.Forms s s.planCell.1 := by
  unfold State.planCell
  dsimp only
  split
  · exact rfl
  · exact s.siteCell_forms
  · unfold State.spareCell
    split
    · next d _ => exact ((State.Inserts.refl s).giveCell d).forms.trans rfl
    · exact s.siteCell_forms

/-! ### The take of the ring (R87) -/

theorem State.takeRing_none (h : s.ring.get (g % 65536) = none) : s.takeRing g = (s, none) := by
  unfold State.takeRing Config.ringSize
  rw [h]

theorem State.takeRing_fresh (h : s.ring.get (g % 65536) = some e) (ht : e.tag = g) :
    s.takeRing g = ({ s with ring := s.ring.del (g % 65536) }, some e) := by
  unfold State.takeRing Config.ringSize
  rw [h]
  exact if_pos ht

theorem State.takeRing_stale (h : s.ring.get (g % 65536) = some e) (ht : e.tag ≠ g) :
    s.takeRing g = ({ s with
      ring := s.ring.del (g % 65536)
      streams := countStream s.streams e.stream e.origin (cellLabel e.cell) e.cls StreamCounts.bumpLate }, none) := by
  unfold State.takeRing Config.ringSize
  rw [h]
  exact if_neg ht

theorem State.formCell_unnumbered (h : s.slotNumber = none) : s.formCell = s.planCell := by
  unfold State.formCell
  rw [h]

theorem State.formCell_empty (hg : s.slotNumber = some g) (h : s.ring.get (g % 65536) = none) :
    s.formCell = s.planCell := by
  unfold State.formCell
  simp only [hg, State.takeRing_none h]

theorem State.formCell_fresh (hg : s.slotNumber = some g) (h : s.ring.get (g % 65536) = some e) (ht : e.tag = g) :
    s.formCell = ({ s with ring := s.ring.del (g % 65536) } : State).networkCell g e := by
  unfold State.formCell
  simp only [hg, State.takeRing_fresh h ht]

theorem State.formCell_stale (hg : s.slotNumber = some g) (h : s.ring.get (g % 65536) = some e) (ht : e.tag ≠ g) :
    s.formCell = ({ s with
      ring := s.ring.del (g % 65536)
      streams := countStream s.streams e.stream e.origin (cellLabel e.cell) e.cls StreamCounts.bumpLate } :
        State).planCell := by
  unfold State.formCell
  simp only [hg, State.takeRing_stale h ht]

theorem State.formCell_forms (s : State) : State.Forms s s.formCell.1 := by
  cases hg : s.slotNumber with
  | none =>
    rw [State.formCell_unnumbered hg]
    exact s.planCell_forms
  | some g =>
    cases hr : s.ring.get (g % 65536) with
    | none =>
      rw [State.formCell_empty hg hr]
      exact s.planCell_forms
    | some e =>
      by_cases ht : e.tag = g
      · rw [State.formCell_fresh hg hr ht]
        exact State.Forms.trans (t := { s with ring := s.ring.del (g % 65536) }) (Eq.refl _)
          ((State.Inserts.refl _).networkCell g e).forms
      · rw [State.formCell_stale hg hr ht]
        exact State.Forms.trans (t := { s with
          ring := s.ring.del (g % 65536)
          streams := countStream s.streams e.stream e.origin (cellLabel e.cell) e.cls StreamCounts.bumpLate }) (Eq.refl _)
          (State.planCell_forms _)

/-! ## The length of the cell -/

theorem overwrite_length {bs new : Bytes} {start : Nat} (h : start + new.length ≤ bs.length) :
    (overwrite bs start new).length = bs.length := by
  unfold overwrite
  simp only [List.length_append, List.length_take, List.length_drop]
  omega

theorem withDisc_length (h : cell.length = 184) : (withDisc cell).length = 184 :=
  (overwrite_length (by rw [h]; exact Nat.le_of_ble_eq_true rfl)).trans h

theorem formCell_length {label continuity : Nat} {clock start stamped disc : Bool} {payload : Bytes}
    (h : payload.length = 180) : (formCell label continuity clock start stamped disc payload).length = 184 := by
  unfold formCell
  simp only [List.length_append, List.length_cons, List.length_nil, h]

theorem nullCell_length : nullCell.length = 184 := formCell_length List.length_replicate

theorem writeClock_length {payload : Bytes} {start : Nat} (v : Clock) (h : start + 5 ≤ payload.length) :
    (writeClock payload start v).length = payload.length := overwrite_length (by rw [beBytes_length]; exact h)

theorem State.rebasedPayload_length {d : DueCell} (h : d.cell.payload.length = 180) :
    (s.rebasedPayload d).length = 180 := by
  have hclocked : (if d.cell.clock then
      writeClock d.cell.payload 0 (s.clockAfter (payloadClock d.cell.payload 0 + d.offset) d.lag)
      else d.cell.payload).length = 180 := by
    split
    · rw [writeClock_length _ (by omega), h]
    · exact h
  have hat : (if d.cell.clock then 5 else 0 : Nat) ≤ 5 := by split <;> decide
  unfold State.rebasedPayload
  dsimp only
  split
  · rw [writeClock_length _ (by rw [hclocked]; omega), hclocked]
  · exact hclocked

theorem State.localCell_length {d : DueCell} (h : d.cell.payload.length = 180) : (s.localCell d).length = 184 :=
  formCell_length (State.rebasedPayload_length h)

/-- Every stored payload is whole: a cell of the clip area that was never written has 180 bytes, as every record has. -/
theorem State.clipRecord_length (h : ∀ p ∈ s.clipCells, p.2.payload.length = 180) (n : Nat) :
    (s.clipRecord n).payload.length = 180 := by
  unfold State.clipRecord
  split
  · next r hr => exact h (n, r) (Table.mem_of_get hr)
  · exact (List.length_map _).trans List.length_range'

theorem State.nextCellOf_cell {c : Nat} {r : Insertion} {p : Playback} {d : DueCell}
    (h : s.nextCellOf c k r p = some d) : ∃ n, d.cell = s.clipRecord n := by
  unfold State.nextCellOf at h
  split at h
  · dsimp only at h
    split at h
    · cases h
      exact ⟨_, rfl⟩
    · cases h
  · cases h

theorem State.dueCell_cell {c : Nat} {d : DueCell} (h : s.dueCell c = some d) : ∃ n, d.cell = s.clipRecord n := by
  unfold State.dueCell at h
  split at h
  · cases h
  · split at h
    · split at h
      · split at h
        · next d' hd =>
          split at h
          · cases h
            exact State.nextCellOf_cell hd
          · cases h
        · cases h
      · cases h
    · cases h

theorem State.dueCell_length {c : Nat} {d : DueCell} (hw : ∀ p ∈ s.clipCells, p.2.payload.length = 180)
    (h : s.dueCell c = some d) : (s.localCell d).length = 184 := by
  obtain ⟨n, hn⟩ := State.dueCell_cell h
  exact State.localCell_length (hn ▸ State.clipRecord_length hw n)

theorem State.passOn_length (h : cell.length = 184) : (s.passOn k cell).2.length = 184 := by
  unfold State.passOn
  split
  · exact withDisc_length h
  · exact h

theorem State.serviceCell_length (hw : ∀ p ∈ s.clipCells, p.2.payload.length = 180) (h : cell.length = 184) :
    (s.serviceCell k cell).2.length = 184 := by
  unfold State.serviceCell
  split
  · unfold State.vacated
    split
    · next d hd =>
      obtain ⟨c, _, hc⟩ := Option.bind_eq_some_iff.mp hd
      exact State.dueCell_length (s := s.countReplaced k) hw hc
    · exact nullCell_length
  · unfold State.returningCell
    dsimp only
    split
    · exact State.passOn_length h
    · exact nullCell_length
  all_goals exact State.passOn_length h

theorem State.networkCell_length (hw : ∀ p ∈ s.clipCells, p.2.payload.length = 180) (h : e.cell.length = 184) :
    (s.networkCell g e).2.length = 184 := by
  unfold State.networkCell
  split
  · exact State.serviceCell_length (s := s.updateAnchor _ _ _) hw h
  all_goals exact h

theorem State.siteCell_length (hw : ∀ c ∈ s.assembler.carousel, c.length = 184) : s.siteCell.2.length = 184 := by
  unfold State.siteCell
  split
  · next cell hc => exact hw cell (List.mem_of_getElem? hc)
  · exact nullCell_length

theorem State.planCell_length (hp : ∀ p ∈ s.clipCells, p.2.payload.length = 180)
    (hw : ∀ c ∈ s.assembler.carousel, c.length = 184) : s.planCell.2.length = 184 := by
  unfold State.planCell
  dsimp only
  split
  · exact nullCell_length
  · exact State.siteCell_length hw
  · unfold State.spareCell
    split
    · next d hd =>
      obtain ⟨c, _, hc⟩ := List.exists_of_findSome?_eq_some hd
      exact State.dueCell_length hp hc
    · exact State.siteCell_length hw

theorem State.formCell_length (hw : s.cellsWhole) : s.formCell.2.length = 184 := by
  obtain ⟨_, _, _, hring, hcarousel, hpayloads⟩ := hw
  cases hg : s.slotNumber with
  | none =>
    rw [State.formCell_unnumbered hg]
    exact State.planCell_length hpayloads hcarousel
  | some g =>
    cases hr : s.ring.get (g % 65536) with
    | none =>
      rw [State.formCell_empty hg hr]
      exact State.planCell_length hpayloads hcarousel
    | some e =>
      by_cases ht : e.tag = g
      · rw [State.formCell_fresh hg hr ht]
        exact State.networkCell_length hpayloads (hring (g % 65536, e) (Table.mem_of_get hr))
      · rw [State.formCell_stale hg hr ht]
        exact State.planCell_length hpayloads hcarousel

end

end Sys2Proof.Machine

/-! SUPPORT. A slot boundary: the slot taken, its cell formed, recorded and presented (R95, R97, R102, R111, R112). -/

namespace Sys2Proof.Machine

section

variable {s : State}

/-! ## The slot and its cell -/

/-- The slot taken and the records moved on: what its cell is formed in. -/
def State.slotBegun (s : State) : State := s.beginSlot.insertionBoundary

theorem State.slotBegun_inserts (s : State) : State.Inserts s.beginSlot s.slotBegun := (State.Inserts.refl _).insertionBoundary

theorem State.slotBegun_forms (s : State) : State.Forms s.beginSlot s.slotBegun.formCell.1 :=
  s.slotBegun_inserts.forms.trans s.slotBegun.formCell_forms

theorem State.slotBegun_whole (h : s.cellsWhole) : s.slotBegun.cellsWhole :=
  cellsWhole_looseLaw.toLaw.insertionBoundary (cellsWhole_looseLaw.toLaw.same h rfl)

theorem State.beginSlot_slotNumber (s : State) : s.beginSlot.assembler.slotNumber = (if s.time.epochKnown then
    some ((s.time.second.toNat % 64 * 10000000 + s.time.tick) / s.site.period) else none) := by
  show s.time.siteStamp.map _ = _
  unfold TimeUnit.siteStamp Config.ticksPerSecond
  split
  · rfl
  · rfl

theorem State.beginSlot_currentPos (s : State) : s.beginSlot.currentPos = (if s.time.epochKnown then
    some { second := s.time.second, slot := s.time.tick / s.site.period } else none) := rfl

/-! ## Presented and recorded -/

/-- The output of a slot boundary (R111 to R113). -/
def State.slotOutput (cell : Bytes) (s : State) : OutputPort :=
  if s.site.output then {
    rest := cell.drop 1, presenting := true, data := byteAt cell 0, valid := true, strobe := true
    mark := decide (s.time.tick / s.site.period = 0), permit := s.permitCondition }
  else { s.output with permit := s.permitCondition }

theorem State.slotOutput_on {cell : Bytes} (h : s.site.output = true) : s.slotOutput cell = {
    rest := cell.drop 1, presenting := true, data := byteAt cell 0, valid := true, strobe := true
    mark := decide (s.time.tick / s.site.period = 0), permit := s.permitCondition } := if_pos h

theorem State.slotOutput_off {cell : Bytes} (h : s.site.output = false) :
    s.slotOutput cell = { s.output with permit := s.permitCondition } := if_neg (ne_true_of_eq_false h)

/-- What an emitted cell leaves at the components of a service (R102). -/
def ServiceEntry.emitted (cell : Bytes) (x : ServiceEntry) : ServiceEntry :=
  { x with components := x.components.map (fun c =>
      if c.label = cellLabel cell then { c with continuity := cellContinuity cell, emittedYet := true } else c) }

theorem State.takeSlotBoundary_eq (s : State) : s.takeSlotBoundary = { s.slotBegun.formCell.1 with
    services := s.slotBegun.formCell.1.services.mapAll (ServiceEntry.emitted s.slotBegun.formCell.2)
    output := s.slotOutput s.slotBegun.formCell.2 } := by
  have hf : State.Forms s.beginSlot s.slotBegun.formCell.1 := s.slotBegun_forms
  show ((s.slotBegun.formCell.1.recordEmitted s.slotBegun.formCell.2).present s.slotBegun.formCell.2).assertPermit = _
  generalize s.slotBegun.formCell = formed at hf
  rw [show formed.1 = _ from hf]
  cases ho : s.site.output with
  | true =>
    rw [State.slotOutput_on ho]
    exact congrArg State.assertPermit (if_pos ho)
  | false =>
    rw [State.slotOutput_off ho]
    exact congrArg State.assertPermit (if_neg (ne_true_of_eq_false ho))

theorem State.takeDueSlot_plain (h : s.secondDue = false ∨ s.heldNotices ≠ none) :
    s.takeDueSlot = s.takeSlotBoundary := by
  refine if_neg ?_
  rcases h with h | h
  · simp [h]
  · cases hh : s.heldNotices with
    | none => exact absurd hh h
    | some _ => simp

theorem State.takeDueSlot_first (hd : s.secondDue = true) (hh : s.heldNotices = none) :
    s.takeDueSlot = s.takeSlotFirst := if_pos (by simp [hd, hh])

theorem exec_slotBoundary (hd : s.slotDue = true) : exec .slotBoundary s = .next s.takeDueSlot :=
  congrArg Host.Outcome.next (if_pos hd)

/-- The notices that slot 0 held back join the queue at the second boundary (R190, R198). -/
theorem exec_secondBoundary_held {held : List Notice} (hd : s.secondDue = true) (hh : s.heldNotices = some held)
    (hr : s.control.notices.length + held.length ≤ 64) : exec .secondBoundary s = .next { s with
      secondDue := false, heldNotices := none
      control := { s.control with notices := s.control.notices ++ held } } := by
  refine congrArg Host.Outcome.next ((if_pos hd).trans ?_)
  unfold State.takeDueSecond State.joinHeld
  simp only [hh, Option.isSome_some, if_true, Option.getD_some]
  rw [ControlLink.enqueueAll_room held hr]

/-- What slot 0 is taken in where it comes before its second boundary: the boundary has moved site time on, and its notices
are held back (R198). -/
def State.holdingBack (s b : State) : State :=
  { b with control := s.control, secondDue := true, heldNotices := some b.control.notices }

theorem State.holdingBack_slotDue {b : State} (h : b.slotDue = true) : (s.holdingBack b).slotDue = true := by
  unfold State.holdingBack
  exact h

theorem State.takeSlotBoundary_secondDue (s : State) : s.takeSlotBoundary.secondDue = s.secondDue := by
  rw [s.takeSlotBoundary_eq]
  dsimp only
  rw [s.slotBegun_forms.secondDue]
  rfl

theorem State.takeSlotBoundary_heldNotices (s : State) : s.takeSlotBoundary.heldNotices = s.heldNotices := by
  rw [s.takeSlotBoundary_eq]
  dsimp only
  rw [s.slotBegun_forms.heldNotices]
  rfl

theorem State.takeSecondBoundary_slotDue (s : State) : s.takeSecondBoundary.slotDue = true := by
  obtain ⟨_, _, _, _, _, _, _, _, _, _, _, heq, _⟩ := s.takeSecondBoundary_eq
  rw [heq]

end

/-! ## Settled -/

/-- Settles O28: the frame of forming the cell gives what a slot boundary leaves; the cell by what the ring holds for the
slot; slot 0 before its second boundary by its definition. -/
theorem slotYieldsOneCell : Obligations.SlotYieldsOneCell := by
  unfold Obligations.SlotYieldsOneCell
  refine ⟨fun s hd hf => ?_, fun s => ⟨State.formCell_unnumbered, fun g hg => ⟨State.formCell_empty hg, fun e he =>
    ⟨State.formCell_fresh hg he, State.formCell_stale hg he⟩⟩⟩, fun s hd hs hh => ?_⟩
  · have hexec : exec .slotBoundary s = .next s.takeSlotBoundary :=
      (exec_slotBoundary hd).trans (congrArg _ (State.takeDueSlot_plain hf))
    have hforms : State.Forms s.beginSlot s.beginSlot.insertionBoundary.formCell.1 := s.slotBegun_forms
    have hlength : s.cellsWhole → s.beginSlot.insertionBoundary.formCell.2.length = 184 :=
      fun hw => State.formCell_length (State.slotBegun_whole hw)
    have htaken := s.takeSlotBoundary_eq
    unfold State.slotBegun at htaken
    dsimp only
    generalize s.beginSlot.insertionBoundary.formCell = formed at hforms hlength htaken ⊢
    refine ⟨_, hexec, ?_⟩
    rw [htaken]
    refine ⟨hforms.slotDue, hforms.slot, hforms.takenNumber.trans s.beginSlot_slotNumber,
      hforms.currentPos.trans s.beginSlot_currentPos, hforms.time, hforms.site, rfl,
      fun k => Table.get_mapAll _ _ k, fun ho => State.slotOutput_on ho, fun ho => State.slotOutput_off ho, hlength⟩
  · have hfirst : s.takeDueSlot = s.takeSlotFirst := State.takeDueSlot_first hs hh
    refine ⟨_, _, exec_secondBoundary hs hh, ?_, (exec_slotBoundary hd).trans (congrArg _ hfirst), fun hr =>
      exec_secondBoundary_held ?_ ?_ hr⟩
    · exact (exec_slotBoundary (State.holdingBack_slotDue (State.takeSecondBoundary_slotDue _))).trans
        (congrArg _ (State.takeDueSlot_plain (s := s.holdingBack _) (Or.inr (Option.some_ne_none _))))
    · rw [State.takeSlotFirst, State.takeSlotBoundary_secondDue]
    · rw [State.takeSlotFirst, State.takeSlotBoundary_heldNotices]

end Sys2Proof.Machine

/-! SUPPORT. The cell of a network candidate (R98 to R101). -/

namespace Sys2Proof.Machine

section

variable {s : State} {g k : Nat} {e : RingEntry} {x : ServiceEntry} {cell : Bytes}

/-! ## The header of a cell with its DISC flag set (R202) -/

theorem byteAt_overwrite_before {bs new : Bytes} {start i : Nat} (hi : i < start) (hb : start ≤ bs.length) :
    byteAt (overwrite bs start new) i = byteAt bs i := by
  unfold byteAt overwrite
  rw [List.append_assoc, List.getD_append _ _ _ _ (by rw [List.length_take]; omega), List.getD_eq_getElem?_getD,
    List.getElem?_take_of_lt hi, List.getD_eq_getElem?_getD]

theorem cellLabel_withDisc (h : cell.length = 184) : cellLabel (withDisc cell) = cellLabel cell := by
  unfold cellLabel withDisc
  rw [byteAt_overwrite_before (by decide) (by omega), byteAt_overwrite_before (by decide) (by omega)]

theorem cellContinuity_withDisc (h : cell.length = 184) : cellContinuity (withDisc cell) = cellContinuity cell := by
  unfold cellContinuity withDisc
  rw [byteAt_overwrite_before (by decide) (by omega)]

/-! ## A service's updates read back -/

theorem State.updateService_get (f : ServiceEntry → ServiceEntry) (h : s.services.get k = some x) :
    (s.updateService k f).services.get k = some (f x) :=
  (Table.get_update_same s.services k f).trans (congrArg (Option.map f) h)

theorem State.updateService_get_other (f : ServiceEntry → ServiceEntry) {j : Nat} (h : j ≠ k) :
    (s.updateService k f).services.get j = s.services.get j := Table.get_update_other s.services f h

theorem State.updateService_invalid (f : ServiceEntry → ServiceEntry) (h : s.services.get k = none) :
    s.updateService k f = s := by
  unfold State.updateService
  rw [Table.update_of_none f h]

theorem State.spliceOf_valid (h : s.services.get k = some x) : s.spliceOf k = x.splice := by
  unfold State.spliceOf
  rw [h]

theorem State.spliceOf_invalid (h : s.services.get k = none) : s.spliceOf k = .network := by
  unfold State.spliceOf
  rw [h]

/-! ## The anchor renewed (R98) -/

/-- The anchor of a service once a cell has been its candidate at slot `g`. -/
def ServiceEntry.anchorAfter (x : ServiceEntry) (g : Nat) (cell : Bytes) : Option Anchor :=
  if cellIsClock cell && decide (x.clockLabel = some (cellLabel cell)) then
    some { clock := payloadClock (cellPayload cell) 0, slot := g }
  else x.anchor

theorem State.updateAnchor_get (h : s.services.get k = some x) :
    (s.updateAnchor k g cell).services.get k = some { x with anchor := x.anchorAfter g cell } := by
  refine (State.updateService_get _ h).trans ?_
  unfold ServiceEntry.anchorAfter
  split
  · rfl
  · rfl

theorem State.networkCell_service (hc : e.cls = .service) (hk : e.service = some k) :
    s.networkCell g e = (s.updateAnchor k g e.cell).serviceCell k e.cell := by
  unfold State.networkCell
  rw [hc, hk]

/-! ## A candidate passed on (R99) -/

/-- Some component with the cell's label awaits DISC. -/
def ServiceEntry.awaits (x : ServiceEntry) (cell : Bytes) : Bool :=
  x.components.any (fun c => decide (c.label = cellLabel cell) && c.awaitDisc)

/-- The cell as it is passed on: with DISC where its component awaits it. -/
def ServiceEntry.sent (x : ServiceEntry) (cell : Bytes) : Bytes := if x.awaits cell then withDisc cell else cell

/-- A service whose component with the cell's label awaits DISC no longer. -/
def ServiceEntry.settled (x : ServiceEntry) (cell : Bytes) : ServiceEntry :=
  { x with components := x.components.map (fun c => if c.label = cellLabel cell then { c with awaitDisc := false } else c) }

theorem ServiceEntry.settled_idle (h : x.awaits cell = false) : x.settled cell = x := by
  have hsame : x.components.map (fun c => if c.label = cellLabel cell then { c with awaitDisc := false } else c) =
      x.components := by
    refine (List.map_congr_left fun c hc => ?_).trans (List.map_id _)
    have hidle := List.any_eq_false.mp h c hc
    split
    · next hl =>
      have hoff : c.awaitDisc = false := by simpa [hl] using hidle
      rw [← hoff]
      rfl
    · rfl
  unfold ServiceEntry.settled
  rw [hsame]

theorem ServiceEntry.sent_header (h : cell.length = 184) :
    cellLabel (x.sent cell) = cellLabel cell ∧ cellContinuity (x.sent cell) = cellContinuity cell := by
  unfold ServiceEntry.sent
  split
  · exact ⟨cellLabel_withDisc h, cellContinuity_withDisc h⟩
  · exact ⟨rfl, rfl⟩

/-- What passing a cell on and recording it leave at the components of its label. -/
theorem ServiceEntry.emitted_settled (y : ServiceEntry) (h : cell.length = 184) :
    ((y.settled cell).emitted (x.sent cell)).components = y.components.map (fun c => if c.label = cellLabel cell then
      { c with continuity := cellContinuity cell, emittedYet := true, awaitDisc := false } else c) := by
  obtain ⟨hl, hc⟩ := ServiceEntry.sent_header (x := x) h
  unfold ServiceEntry.emitted ServiceEntry.settled
  rw [hl, hc]
  refine List.map_map.trans (List.map_congr_left fun c _ => ?_)
  by_cases hcl : c.label = cellLabel cell <;> simp [hcl]

theorem State.awaits_valid (h : s.services.get k = some x) : s.awaits k (cellLabel cell) = x.awaits cell := by
  unfold State.awaits
  rw [h]
  rfl

theorem State.passOn_invalid (h : s.services.get k = none) : s.passOn k cell = (s, cell) := by
  refine if_neg ?_
  unfold State.awaits
  simp [h]

theorem State.passOn_sent (h : s.services.get k = some x) : (s.passOn k cell).2 = x.sent cell := by
  unfold State.passOn ServiceEntry.sent
  rw [State.awaits_valid h]
  split
  · rfl
  · rfl

/-- A candidate passed on changes its service alone, which awaits its DISC no longer. -/
theorem State.passOn_services (h : s.services.get k = some x) :
    (s.passOn k cell).1 = { s with services := (s.passOn k cell).1.services } ∧
      (s.passOn k cell).1.services.get k = some (x.settled cell) ∧
      ∀ j, j ≠ k → (s.passOn k cell).1.services.get j = s.services.get j := by
  unfold State.passOn
  rw [State.awaits_valid h]
  split
  · exact ⟨rfl, State.updateService_get _ h, fun j hj => State.updateService_get_other _ hj⟩
  · next hn =>
    rw [x.settled_idle (Bool.eq_false_iff.mpr hn)]
    exact ⟨rfl, h, fun j _ => rfl⟩

theorem State.serviceCell_network (h : s.spliceOf k = .network ∨ s.spliceOf k = .primed) :
    s.serviceCell k cell = s.passOn k cell := by
  unfold State.serviceCell
  rcases h with h | h <;> rw [h]

/-- The candidate is passed on as it stands, whatever its service (R99). -/
def RingEntry.plain (e : RingEntry) (s : State) : Prop :=
  e.cls = .shared ∨ e.cls = .cue ∨ (e.cls = .service ∧ ∃ k, e.service = some k ∧ s.services.get k = none)

theorem State.networkCell_plain (h : e.plain s) : s.networkCell g e = (s, e.cell) := by
  rcases h with h | h | ⟨h, k, hk, hs⟩
  · unfold State.networkCell
    rw [h]
  · unfold State.networkCell
    rw [h]
  · have hanchor : s.updateAnchor k g e.cell = s := State.updateService_invalid _ hs
    rw [State.networkCell_service h hk, hanchor, State.serviceCell_network (Or.inl (State.spliceOf_invalid hs)),
      State.passOn_invalid hs]

/-- A candidate of a service in NETWORK or PRIMED (R98, R99). -/
theorem State.networkCell_passes (hc : e.cls = .service) (hk : e.service = some k) (hs : s.services.get k = some x)
    (hx : x.splice = .network ∨ x.splice = .primed) :
    (s.networkCell g e).2 = x.sent e.cell ∧
      (s.networkCell g e).1 = { s with services := (s.networkCell g e).1.services } ∧
      (s.networkCell g e).1.services.get k =
        some (ServiceEntry.settled { x with anchor := x.anchorAfter g e.cell } e.cell) ∧
      ∀ j, j ≠ k → (s.networkCell g e).1.services.get j = s.services.get j := by
  have hanchored := State.updateAnchor_get (g := g) (cell := e.cell) hs
  have hpass : s.networkCell g e = (s.updateAnchor k g e.cell).passOn k e.cell := by
    rw [State.networkCell_service hc hk, State.serviceCell_network]
    rw [State.spliceOf_valid hanchored]
    exact hx
  obtain ⟨hframe, hget, hother⟩ := State.passOn_services (cell := e.cell) hanchored
  rw [hpass]
  exact ⟨(State.passOn_sent hanchored :), hframe, hget,
    fun j hj => (hother j hj).trans (State.updateService_get_other _ hj)⟩

/-! ## The slot of a network candidate, while no record is listed -/

theorem State.insertionBoundary_idle (h : s.insertions = []) : s.insertionBoundary = s := by
  have hstep (k : Nat) : s.recordBoundary k = s := by
    unfold State.recordBoundary
    rw [h]
    rfl
  unfold State.insertionBoundary
  induction List.range 16 with
  | nil => rfl
  | cons k ks ih =>
    rw [List.foldl_cons, hstep]
    exact ih

/-- The state in which the candidate of a slot is taken up. -/
def State.ringTaken (g : Nat) (s : State) : State := { s.beginSlot with ring := s.ring.del (g % 65536) }

theorem State.slotBegun_fresh (hi : s.insertions = []) (hk : s.time.epochKnown = true)
    (hg : g = (s.time.second.toNat % 64 * 10000000 + s.time.tick) / s.site.period)
    (hr : s.ring.get (g % 65536) = some e) (ht : e.tag = g) :
    s.slotBegun.formCell = (s.ringTaken g).networkCell g e := by
  have hnumber : s.beginSlot.slotNumber = some g := by
    rw [State.slotNumber_taken (s := s.beginSlot) (g := g), s.beginSlot_currentPos, if_pos hk]
    · rfl
    · rw [s.beginSlot_slotNumber, if_pos hk, hg]
  rw [State.slotBegun, State.insertionBoundary_idle (s := s.beginSlot) hi]
  exact State.formCell_fresh hnumber hr ht

theorem exec_slotBoundary_plain (hd : s.slotDue = true) (h : s.secondDue = false) :
    exec .slotBoundary s = .next s.takeSlotBoundary :=
  (exec_slotBoundary hd).trans (congrArg _ (State.takeDueSlot_plain (Or.inl h)))

end

/-! ## Settled -/

/-- Settles O29: the slot's cell is that of its fresh candidate, and this one is passed on, plain or with its service's
DISC; `takeSlotBoundary_eq` says what is then recorded and presented. -/
theorem networkCellsPassedOn : Obligations.NetworkCellsPassedOn := by
  unfold Obligations.NetworkCellsPassedOn
  refine ⟨fun s e g hd hs hi hk ho hg hr ht hplain _ => ?_, fun s e g k x hd hs hi hk ho hg hr ht hc hsv hlen hx hsp => ?_,
    fun s g e => ⟨State.networkCell_plain, fun k x hc hk hs hx => ?_⟩⟩
  · have hcell : s.slotBegun.formCell = (s.ringTaken g, e.cell) :=
      (State.slotBegun_fresh hi hk hg hr ht).trans (State.networkCell_plain (s := s.ringTaken g) hplain)
    refine ⟨_, exec_slotBoundary_plain hd hs, ?_⟩
    rw [s.takeSlotBoundary_eq, hcell, State.slotOutput_on ho]
    exact ⟨rfl, rfl, rfl, rfl, rfl, rfl, fun k => Table.get_mapAll s.services _ k⟩
  · obtain ⟨hsent, hframe, hget, _⟩ := State.networkCell_passes (s := s.ringTaken g) (g := g) hc hsv hx hsp
    have hring : ((s.ringTaken g).networkCell g e).1.ring = s.ring.del (g % 65536) := (congrArg State.ring hframe :)
    refine ⟨_, ServiceEntry.emitted (x.sent e.cell) (ServiceEntry.settled { x with anchor := x.anchorAfter g e.cell } e.cell),
      exec_slotBoundary_plain hd hs, ?_⟩
    rw [s.takeSlotBoundary_eq, State.slotBegun_fresh hi hk hg hr ht, State.slotOutput_on ho, hsent]
    refine ⟨hring, (Table.get_mapAll _ _ k).trans (congrArg _ hget), rfl, rfl, fun hclock hlabel => ?_, fun h => ?_,
      ServiceEntry.emitted_settled _ hlen, rfl, rfl⟩
    · exact if_pos (by simp [hclock, hlabel])
    · refine if_neg ?_
      rcases h with h | h <;> simp [h]
  · obtain ⟨hsent, hframe, hget, hother⟩ := State.networkCell_passes (g := g) hc hk hs hx
    exact ⟨hsent, _, hframe, hget, hother, rfl⟩

end Sys2Proof.Machine

/-! SUPPORT. A record that ends with its notice, and the cell of a slot of a spliced service (R100, R101, R160, R164). -/

namespace Sys2Proof.Machine

section

variable {s t : State} {k i : Nat} {r : Insertion} {x : ServiceEntry} {cell : Bytes} {result : Result}

/-! ## Updates of the Insertion Engine and the slot -/

theorem State.Inserts.time (h : State.Inserts s t) : t.time = s.time := (congrArg State.time h :)

theorem State.Inserts.currentPos (h : State.Inserts s t) : t.currentPos = s.currentPos := (congrArg State.currentPos h :)

theorem State.Inserts.currentNumber (h : State.Inserts s t) : t.currentNumber = s.currentNumber :=
  (congrArg State.currentNumber h :)

/-- A notice raised after updates of the Insertion Engine that raised none. -/
theorem State.Inserts.noticesWith (h : State.Inserts s t) (hc : t.control = s.control) (d : NoticeDetail) :
    t.noticesWith d = s.noticesWith d := by
  unfold State.noticesWith
  rw [h.time, hc]

/-! ## A record ends (R133, R164) -/

theorem State.enterDone_control (k : Nat) (r : Insertion) (result : Result) (s : State) :
    (s.enterDone k r result).control = s.control := (congrArg State.control (State.enterDone_frame k r result s) :)

/-- The notice of a record that ends. -/
def Insertion.endNotice (r : Insertion) (k : Nat) (result : Result) (s : State) : NoticeDetail :=
  .insert k r.service r.state .done (.result result) r.matched s.currentNumber

theorem State.finish_room (hr : s.control.notices.length < 64) : s.finish k r result = { s.enterDone k r result with
    control := { s.control with notices := s.noticesWith (r.endNotice k result s) } } := by
  have hi : State.Inserts s (s.enterDone k r result) := (State.Inserts.refl s).enterDone k r result
  have hc := State.enterDone_control k r result s
  have hraise := State.raise_room (s := s.enterDone k r result) (r.endNotice k result (s.enterDone k r result))
    (by rw [hc]; exact hr)
  refine hraise.trans ?_
  unfold Insertion.endNotice
  rw [hi.currentNumber, hi.noticesWith hc, hc]

/-- The channels once a record that holds its service ends (R151). -/
theorem State.enterDone_channels (h : r.holds = true) (result : Result) :
    (s.enterDone k r result).channels = (match r.channel with
      | some c => s.channels.del c
      | none => s.channels) := by
  rw [State.enterDone_of_holds h]
  rfl

/-- A service whose return has ended: in NETWORK, and every component awaits DISC (R160, R161). -/
def ServiceEntry.returned (x : ServiceEntry) : ServiceEntry :=
  { x with
    splice := .network, active := none
    components := x.components.map (fun c => { c with awaitDisc := true }) }

/-- A return that ends (R160, R161): what it writes besides the reel and the clips it releases. -/
theorem State.endReturn_room (hh : r.holds = true) (hx : s.services.get r.service = some x)
    (hr : s.control.notices.length < 64) : s.endReturn k r result = { s with
      services := s.services.put r.service x.returned
      channels := (match r.channel with
        | some c => s.channels.del c
        | none => s.channels)
      insertions := s.insertions.put k (r.ended result s.currentPos)
      reels := (s.endReturn k r result).reels, clips := (s.endReturn k r result).clips
      control := { s.control with
        notices := s.noticesWith (r.endNotice k result s) } } := by
  have hfinish := State.finish_room (s := s.awaitDisc r.service) (k := k) (r := r) (result := result) hr
  have hservices : ((s.awaitDisc r.service).enterDone k r result).services = s.services.put r.service x.returned := by
    refine (State.enterDone_services_of_holds (s := s.awaitDisc r.service) hh (State.updateService_get _ hx) result).trans ?_
    exact (congrArg (fun t => Table.put t r.service _) (Table.update_of_get _ hx)).trans (Table.put_put _ _ _ _)
  unfold State.endReturn
  rw [hfinish, State.enterDone_frame, hservices, State.enterDone_channels hh]
  rfl

theorem State.endReturn_releases (hr : s.control.notices.length < 64) :
    s.releases r.reel (s.endReturn k r result) := by
  have hrel := State.enterDone_releases k r result (s.awaitDisc r.service)
  unfold State.endReturn
  rw [State.finish_room (s := s.awaitDisc r.service) hr]
  exact hrel

end

end Sys2Proof.Machine

/-! SUPPORT. The cell of a slot of a spliced service, and of a slot of the plan (R100, R101, R103 to R105). -/

namespace Sys2Proof.Machine

section

variable {s : State} {k i : Nat} {r : Insertion} {x : ServiceEntry} {cell : Bytes} {result : Result}

/-! ## The services' counts and the Insertion Engine -/

theorem State.dueCell_countReplaced (k c : Nat) (s : State) : (s.countReplaced k).dueCell c = s.dueCell c := rfl

theorem State.localCell_countReplaced (k : Nat) (d : DueCell) (s : State) :
    (s.countReplaced k).localCell d = s.localCell d := by
  have hcomp : (s.countReplaced k).componentOf d.insertion.service d.cell.component =
      s.componentOf d.insertion.service d.cell.component := by
    have hget : ((s.countReplaced k).services.get d.insertion.service).map ServiceEntry.components =
        (s.services.get d.insertion.service).map ServiceEntry.components := by
      by_cases hk : d.insertion.service = k
      · rw [hk, show (s.countReplaced k).services.get k = _ from Table.get_update_same s.services k _, Option.map_map]
        rfl
      · rw [show (s.countReplaced k).services.get d.insertion.service = _ from State.updateService_get_other _ hk]
    unfold State.componentOf
    cases hb : s.services.get d.insertion.service with
    | none =>
      rw [hb, Option.map_none, Option.map_eq_none_iff] at hget
      rw [hget]
    | some y =>
      rw [hb, Option.map_some, Option.map_eq_some_iff] at hget
      obtain ⟨z, hz, hzy⟩ := hget
      simp only [hz, hzy]
  unfold State.localCell
  rw [hcomp]
  rfl

/-! ## A slot of a LOCAL service (R100) -/

/-- The null cell in a slot of a spliced service: what it counts. -/
def State.nulled (k i : Nat) (s : State) : State := (s.countReplaced k).countNull k i

theorem State.nulled_services (hx : s.services.get k = some x) : (s.nulled k i).services.get k = some { x with
    replaced := min (x.replaced + 1) 4294967295, nulls := min (x.nulls + 1) 4294967295 } :=
  State.updateService_get (s := s.countReplaced k) _ (State.updateService_get _ hx)

theorem State.nulled_insertions (hi : s.insertions.get i = some r) :
    (s.nulled k i).insertions = s.insertions.put i { r with nulls := min (r.nulls + 1) 4294967295 } :=
  Table.update_of_get _ hi

theorem State.serviceCell_local (hs : s.spliceOf k = .onLocal) (hh : s.holder k = some (i, r)) :
    s.serviceCell k cell = (s.countReplaced k).vacated k i r.channel := by
  unfold State.serviceCell
  rw [hs, hh]

theorem State.vacated_none {c : Nat} (h : s.dueCell c = none) :
    s.vacated k i (some c) = (s.countNull k i, nullCell) := by
  unfold State.vacated
  rw [Option.bind_some, h]

theorem State.vacated_due {c : Nat} {d : DueCell} (h : s.dueCell c = some d) :
    s.vacated k i (some c) = (s.giveCell d, s.localCell d) := by
  unfold State.vacated
  rw [Option.bind_some, h]

/-! ## A slot of a RETURNING service (R101) -/

theorem State.serviceCell_returning (hs : s.spliceOf k = .returning) (hh : s.holder k = some (i, r)) :
    s.serviceCell k cell = s.returningCell k i r cell := by
  unfold State.serviceCell
  rw [hs, hh]

theorem State.returningCell_goes_on (hx : s.services.get k = some x)
    (h : cellIsStart cell = false ∨ x.clockLabel ≠ some (cellLabel cell)) :
    s.returningCell k i r cell = (s.nulled k i, nullCell) := by
  have hends : (cellIsStart cell && decide ((s.services.get k).bind ServiceEntry.clockLabel = some (cellLabel cell))) =
      false := by
    rw [hx]
    rcases h with h | h <;> simp [h]
  unfold State.returningCell
  simp only [hends]
  rfl

theorem State.returningCell_ends {cause : BreakCause} (hx : s.services.get k = some x) (hstart : cellIsStart cell = true)
    (hl : x.clockLabel = some (cellLabel cell)) (hb : r.brk = some (cause, result)) :
    s.returningCell k i r cell = (s.endReturn i r result).passOn k cell := by
  have hends : (cellIsStart cell && decide ((s.services.get k).bind ServiceEntry.clockLabel = some (cellLabel cell))) =
      true := by
    rw [hx]
    simp [hstart, hl]
  unfold State.returningCell
  simp only [hends, hb]

/-- While every component awaits DISC, a cell of the clock label is passed on with it. -/
theorem ServiceEntry.sent_clock (hl : x.clockLabel = some (cellLabel cell)) (ha : ∀ c ∈ x.components, c.awaitDisc = true) :
    x.sent cell = withDisc cell := by
  obtain ⟨c, hc, hlabel⟩ := Option.map_eq_some_iff.mp hl
  have hm : c ∈ x.components := List.mem_of_mem_head? hc
  refine if_pos (List.any_eq_true.mpr ⟨c, hm, ?_⟩)
  simp [hlabel, ha c hm]

theorem ServiceEntry.returned_sent (hl : x.clockLabel = some (cellLabel cell)) : x.returned.sent cell = withDisc cell := by
  refine ServiceEntry.sent_clock ?_ fun c hc => ?_
  · refine Eq.trans ?_ hl
    unfold ServiceEntry.clockLabel ServiceEntry.returned
    rw [List.head?_map, Option.map_map]
    rfl
  · obtain ⟨y, _, rfl⟩ := List.mem_map.mp hc
    rfl

theorem ServiceEntry.returned_settled (x : ServiceEntry) (cell : Bytes) : x.returned.settled cell = { x with
    splice := .network, active := none
    components := x.components.map (fun y => { y with awaitDisc := decide (y.label ≠ cellLabel cell) }) } := by
  unfold ServiceEntry.settled ServiceEntry.returned
  refine congrArg (fun cs => ({ x with splice := .network, active := none, components := cs } : ServiceEntry)) ?_
  refine List.map_map.trans (List.map_congr_left fun c _ => ?_)
  by_cases hc : c.label = cellLabel cell <;> simp [hc]

/-! ## A slot of the plan (R103 to R105) -/

theorem State.planCell_null (h : s.assembler.activeBank.entry (s.assembler.slot % s.assembler.activeBank.length) = .null) :
    s.planCell = (s, nullCell) := by
  unfold State.planCell
  simp only [h]

theorem State.planCell_site (h : s.assembler.activeBank.entry (s.assembler.slot % s.assembler.activeBank.length) = .site) :
    s.planCell = s.siteCell := by
  unfold State.planCell
  simp only [h]

theorem State.planCell_spare (h : s.assembler.activeBank.entry (s.assembler.slot % s.assembler.activeBank.length) = .spare) :
    s.planCell = s.spareCell := by
  unfold State.planCell
  simp only [h]

theorem State.siteCell_none (h : s.assembler.carousel[s.assembler.pointer]? = none) : s.siteCell = (s, nullCell) := by
  unfold State.siteCell
  rw [h]

theorem State.siteCell_some (h : s.assembler.carousel[s.assembler.pointer]? = some cell) : s.siteCell =
    ({ s with assembler := { s.assembler with
        pointer := (s.assembler.pointer + 1) % s.assembler.carousel.length } }, cell) := by
  have hp : s.assembler.pointer < s.assembler.carousel.length := (List.getElem?_eq_some_iff.mp h).1
  have hnext : (if s.assembler.pointer + 1 < s.assembler.carousel.length then s.assembler.pointer + 1 else 0) =
      (s.assembler.pointer + 1) % s.assembler.carousel.length := by
    split
    · next hlt => exact (Nat.mod_eq_of_lt hlt).symm
    · next hge => rw [show s.assembler.pointer + 1 = s.assembler.carousel.length by omega, Nat.mod_self]
  unfold State.siteCell
  simp only [h, hnext]

theorem State.spareGrant_none (h : ∀ c, c < 8 → s.dueCell c = none) : s.spareGrant = none := by
  refine List.findSome?_eq_none_iff.mpr fun c hc => ?_
  obtain ⟨j, _, rfl⟩ := List.mem_map.mp hc
  exact h _ (Nat.mod_lt _ (by decide))

theorem State.spareGrant_some {d : DueCell} (hi : i < 8) (hd : s.dueCell ((s.assembler.lastGranted + 1 + i) % 8) = some d)
    (hj : ∀ j, j < i → s.dueCell ((s.assembler.lastGranted + 1 + j) % 8) = none) : s.spareGrant = some d := by
  have hsplit : spareOrder s.assembler.lastGranted =
      (List.range i).map (fun j => (s.assembler.lastGranted + 1 + j) % 8) ++ (s.assembler.lastGranted + 1 + i) % 8 ::
        (List.range (7 - i)).map (fun j => (s.assembler.lastGranted + 1 + (i + 1 + j)) % 8) := by
    have hrange : List.range 8 = List.range i ++ i :: (List.range (7 - i)).map (i + 1 + ·) := by
      interval_cases i <;> rfl
    unfold spareOrder
    rw [hrange, List.map_append, List.map_cons, List.map_map]
    rfl
  unfold State.spareGrant
  rw [hsplit]
  refine List.findSome?_eq_some_iff.mpr ⟨_, _, _, rfl, hd, fun c hc => ?_⟩
  obtain ⟨j, hjm, rfl⟩ := List.mem_map.mp hc
  exact hj j (List.mem_range.mp hjm)

theorem State.spareCell_none (h : s.spareGrant = none) : s.spareCell = s.siteCell := by
  unfold State.spareCell
  rw [h]

theorem State.spareCell_some {d : DueCell} (h : s.spareGrant = some d) : s.spareCell = ({ s.giveCell d with
    assembler := { (s.giveCell d).assembler with lastGranted := d.channel } }, s.localCell d) := by
  unfold State.spareCell
  rw [h]

end

/-! ## Settled -/

/-- The SITE rule of a slot of the plan, as it is stated. -/
theorem State.siteCell_sited (s : State) :
    (s.assembler.carousel[s.assembler.pointer]? = none → s.siteCell.1 = s ∧ s.siteCell.2 = nullCell) ∧
      ∀ c, s.assembler.carousel[s.assembler.pointer]? = some c → s.siteCell.2 = c ∧
        s.siteCell.1 = { s with assembler := { s.assembler with
          pointer := (s.assembler.pointer + 1) % s.assembler.carousel.length } } := by
  refine ⟨fun h => ?_, fun c h => ?_⟩
  · rw [State.siteCell_none h]
    exact ⟨rfl, rfl⟩
  · rw [State.siteCell_some h]
    exact ⟨rfl, rfl⟩

/-- Settles O30: by the service's splice state and by the plan's entry. -/
theorem splicedAndPlanCells : Obligations.SplicedAndPlanCells := by
  unfold Obligations.SplicedAndPlanCells
  refine ⟨fun s g e k x hc hk hs => ?_, fun k i r x cell s hh hi hk hx => ?_, fun s entry he => ?_⟩
  · refine ⟨_, State.networkCell_service hc hk, rfl, fun j hj => State.updateService_get_other _ hj, ?_⟩
    rw [State.updateAnchor_get hs]
    unfold ServiceEntry.anchorAfter
    simp only [Bool.and_eq_true, decide_eq_true_eq]
  · have hnull : s.serviceCell k cell = (s.nulled k i, nullCell) → ∃ t : State, s.serviceCell k cell = (t, nullCell) ∧
        t.services.get k = some { x with
          replaced := min (x.replaced + 1) 4294967295, nulls := min (x.nulls + 1) 4294967295 } ∧
        t.insertions = s.insertions.put i { r with nulls := min (r.nulls + 1) 4294967295 } ∧
        t.channels = s.channels ∧ t.control = s.control ∧ t.ring = s.ring := fun h =>
      ⟨_, h, State.nulled_services hx, State.nulled_insertions hi, rfl, rfl, rfl⟩
    have hsplice := State.spliceOf_valid hx
    refine ⟨fun hl c hrc => ?_, fun hr hgo => ?_, fun hr hstart hlabel cause result hb hst hroom => ?_⟩
    · have hcell : s.serviceCell k cell = (s.countReplaced k).vacated k i (some c) :=
        hrc ▸ State.serviceCell_local (hsplice.trans hl) hh
      refine ⟨fun hd => hnull (hcell.trans (State.vacated_none hd)), fun d hd => ?_⟩
      rw [hcell, State.vacated_due (s := s.countReplaced k) hd, State.localCell_countReplaced]
      exact ⟨rfl, rfl⟩
    · exact hnull ((State.serviceCell_returning (hsplice.trans hr) hh).trans (State.returningCell_goes_on hx hgo))
    · subst hk
      have hend := State.endReturn_room (k := i) (result := result) (r.holds_iff.mpr (Or.inr (Or.inr hst))) hx hroom
      have hget : (s.endReturn i r result).services.get r.service = some x.returned := by
        rw [hend]
        exact Table.get_put_same _ _ _
      have hsent := ServiceEntry.returned_sent hlabel
      obtain ⟨hframe, hservice, _⟩ := State.passOn_services (cell := cell) hget
      have hpass := State.passOn_sent (cell := cell) hget
      have hrel := State.endReturn_releases (s := s) (k := i) (r := r) (result := result) hroom
      refine ⟨((s.endReturn i r result).passOn r.service cell).1, ?_, ?_, ?_, ?_, ?_, ?_⟩
      · rw [State.serviceCell_returning (hsplice.trans hr) hh, State.returningCell_ends hx hstart hlabel hb, ← hsent, ← hpass]
      · rw [hframe]
        exact congrArg State.insertions hend
      · rw [hservice, x.returned_settled]
      · rw [hframe]
        refine (congrArg (fun t => t.control.notices) hend).trans ?_
        rw [← hst]
        rfl
      · rw [hframe]
        exact congrArg State.channels hend
      · rw [hframe]
        exact hrel
  · subst he
    refine ⟨State.planCell_null, fun h => ?_, fun h hd => ?_, fun h i d hi hd hj => ?_⟩
    · rw [State.planCell_site h]
      exact s.siteCell_sited
    · rw [State.planCell_spare h, State.spareCell_none (State.spareGrant_none hd)]
      exact s.siteCell_sited
    · have hgive : State.Inserts s (s.giveCell d) := (State.Inserts.refl s).giveCell d
      rw [State.planCell_spare h, State.spareCell_some (State.spareGrant_some hi hd hj)]
      exact ⟨rfl, (congrArg (fun u : State => { u.assembler with lastGranted := d.channel }) hgive :), rfl, rfl, rfl, rfl⟩

end Sys2Proof.Machine

/-! SUPPORT. The break of a LOCAL record and its exit, read off the record, its channel and its service (R158, R159). -/

namespace Sys2Proof.Machine

/-! ## A record that plays -/

/-- A record at its channel, with the playback that stands there. -/
structure State.Plays (s : State) (r : Insertion) (c : Nat) (ch : Channel) (p : Playback) : Prop where
  channel : r.channel = some c
  held : s.channels.get c = some ch
  play : ch.play = some p

/-- A record whose break is taken (R158). -/
def Insertion.broken (r : Insertion) (cause : BreakCause) (result : Result) : Insertion :=
  { r with brk := some (cause, result), timer := some r.returnLimit }

/-- The exit of a record begun or ended: its break is taken, the record and its service are RETURNING (R159). -/
def State.broughtBack (k : Nat) (r : Insertion) (c : Nat) (ch : Channel) (p : Playback) (x : ServiceEntry)
    (cause : BreakCause) (s : State) : State :=
  { s with
    insertions := s.insertions.put k { r with state := .returning }
    channels := s.channels.put c { ch with play := some { p with clip := none, exitPending := false } }
    services := s.services.put r.service { x with splice := .returning, active := some k }
    control := { s.control with notices := s.noticesWith (.insert k r.service r.state .returning (.brk cause)
      r.matched s.currentNumber) } }

section

variable {s : State} {k c : Nat} {r : Insertion} {ch : Channel} {p : Playback} {x : ServiceEntry} {cause : BreakCause}

/-- A LOCAL record brought back: its notice tells the change from LOCAL. -/
theorem State.broughtBack_local (hl : r.state = .onLocal) : s.broughtBack k r c ch p x cause = { s with
    insertions := s.insertions.put k { r with state := .returning }
    channels := s.channels.put c { ch with play := some { p with clip := none, exitPending := false } }
    services := s.services.put r.service { x with splice := .returning, active := some k }
    control := { s.control with notices := s.noticesWith (.insert k r.service .onLocal .returning (.brk cause)
      r.matched s.currentNumber) } } := by
  unfold State.broughtBack
  rw [hl]

theorem State.broughtBack_putRecord (q : Insertion) :
    (s.putRecord k q).broughtBack k r c ch p x cause = s.broughtBack k r c ch p x cause := by
  unfold State.broughtBack State.putRecord
  dsimp only
  rw [Table.put_put]
  rfl

end

namespace State.Plays

variable {s : State} {k c : Nat} {r q : Insertion} {ch : Channel} {p p' : Playback} {x : ServiceEntry}

theorem playOf (h : s.Plays r c ch p) : s.playOf r.channel = some p := by
  unfold State.playOf
  rw [h.channel]
  show (s.channels.get c).bind Channel.play = some p
  rw [h.held]
  exact h.play

theorem setPlay_eq (h : s.Plays r c ch p) (p' : Playback) :
    s.setPlay r.channel p' = { s with channels := s.channels.put c { ch with play := some p' } } := by
  have hch : s.channels.update c (fun y => { y with play := some p' }) = s.channels.put c { ch with play := some p' } :=
    Table.update_of_get _ h.held
  unfold State.setPlay
  rw [h.channel, ← hch]

theorem setPlay (h : s.Plays r c ch p) (p' : Playback) :
    (s.setPlay r.channel p').Plays r c { ch with play := some p' } p' := by
  rw [h.setPlay_eq]
  exact ⟨h.channel, Table.get_put_same _ _ _, rfl⟩

theorem sameRecord (h : s.Plays r c ch p) (hc : q.channel = r.channel) :
    s.Plays q c ch p := ⟨hc.trans h.channel, h.held, h.play⟩

/-! ## The exit (R159) -/

theorem toReturning_eq (h : s.Plays r c ch p) (hx : s.services.get r.service = some x) (p' : Playback)
    (cause : BreakCause) (hr : s.control.notices.length < 64) : s.toReturning k r p' cause = s.broughtBack k r c ch p' x cause := by
  have hsplice : (s.setPlay r.channel { p' with exitPending := false, clip := none }).setSplice r.service .returning (some k) =
      { s with
        channels := s.channels.put c { ch with play := some { p' with exitPending := false, clip := none } }
        services := s.services.put r.service { x with splice := .returning, active := some k } } := by
    rw [h.setPlay_eq, ← Table.update_of_get (fun e : ServiceEntry => { e with splice := .returning, active := some k }) hx]
    rfl
  unfold State.toReturning
  dsimp only
  rw [hsplice]
  exact State.raise_room _ hr

theorem exitLocal_returns (h : s.Plays r c ch p) (hx : s.services.get r.service = some x) {cause : BreakCause}
    (hr : s.control.notices.length < 64) (he : s.exitComplete p' = true) : s.exitLocal k r p' cause = s.broughtBack k r c ch p' x cause :=
  (if_pos he).trans (h.toReturning_eq hx p' cause hr)

theorem exitLocal_pends (h : s.Plays r c ch p) {cause : BreakCause} (he : s.exitComplete p' = false) :
    s.exitLocal k r p' cause = { s with
      insertions := s.insertions.put k r
      channels := s.channels.put c { ch with play := some { p' with exitPending := true } } } := by
  refine (if_neg (ne_true_of_eq_false he)).trans ?_
  rw [h.setPlay_eq]
  rfl

/-! ## The break (R158) -/

theorem takeBreak_eq (h : s.Plays r c ch p) {cause : BreakCause} {result : Result} (hk : s.insertions.get k = some r)
    (hl : r.state = .onLocal) (hb : r.brk = none) :
    s.takeBreak k cause result = s.exitLocal k (r.broken cause result) { p with stack := [] } cause :=
  State.takeBreak_local cause result hk hl hb h.playOf

theorem takeBreak_returns (h : s.Plays r c ch p) (hx : s.services.get r.service = some x)
    {cause : BreakCause} {result : Result} (hk : s.insertions.get k = some r) (hl : r.state = .onLocal) (hb : r.brk = none)
    (hr : s.control.notices.length < 64) (he : s.exitComplete p = true) :
    s.takeBreak k cause result = s.broughtBack k (r.broken cause result) c ch { p with stack := [] } x cause :=
  (h.takeBreak_eq hk hl hb).trans ((h.sameRecord (q := r.broken cause result) rfl).exitLocal_returns hx hr he)

theorem takeBreak_pends (h : s.Plays r c ch p) {cause : BreakCause} {result : Result}
    (hk : s.insertions.get k = some r) (hl : r.state = .onLocal) (hb : r.brk = none) (he : s.exitComplete p = false) :
    s.takeBreak k cause result = { s with
      insertions := s.insertions.put k (r.broken cause result)
      channels := s.channels.put c { ch with play := some { p with stack := [], exitPending := true } } } :=
  (h.takeBreak_eq hk hl hb).trans ((h.sameRecord (q := r.broken cause result) rfl).exitLocal_pends he)

end State.Plays

/-! ## The end of a clean exit (R159) -/

section

variable {s : State} {p : Playback} {cl : Nat} {e : ClipEntry}

theorem State.clipInPlay_some (hc : p.clip = some cl) (he : s.clips.get cl = some e) : s.clipInPlay p = some (cl, e) := by
  unfold State.clipInPlay
  simp only [hc, he, Option.map_some]

theorem State.exitComplete_idle (h : p.clip = none) : s.exitComplete p = true := by
  unfold State.exitComplete State.clipInPlay
  rw [h]

theorem State.exitComplete_playing (hc : p.clip = some cl) (he : s.clips.get cl = some e) :
    s.exitComplete p = (decide (e.written ≤ p.nextCell) || (s.clipRecord (e.base + p.nextCell)).start) := by
  unfold State.exitComplete
  rw [State.clipInPlay_some hc he]

/-- The clip's last cell has been given, or the next cell is a START cell. -/
theorem State.exitComplete_of_ends (h : ∃ cl e, p.clip = some cl ∧ s.clips.get cl = some e ∧
    (e.written ≤ p.nextCell ∨ (s.clipRecord (e.base + p.nextCell)).start = true)) : s.exitComplete p = true := by
  obtain ⟨cl, e, hc, he, hend⟩ := h
  rw [State.exitComplete_playing hc he]
  rcases hend with hend | hend <;> simp [hend]

/-- With no play in progress, the last cell given or a START cell next, the exit is at its end. -/
theorem State.exitComplete_of_exit (h : p.clip = none ∨ ∃ cl e, p.clip = some cl ∧ s.clips.get cl = some e ∧
    (e.written ≤ p.nextCell ∨ (s.clipRecord (e.base + p.nextCell)).start = true)) : s.exitComplete p = true :=
  h.elim State.exitComplete_idle State.exitComplete_of_ends

theorem State.exitComplete_of_goesOn (h : ∃ cl e, p.clip = some cl ∧ s.clips.get cl = some e ∧ p.nextCell < e.written ∧
    (s.clipRecord (e.base + p.nextCell)).start = false) : s.exitComplete p = false := by
  obtain ⟨cl, e, hc, he, hlt, hstart⟩ := h
  rw [State.exitComplete_playing hc he, hstart, Bool.or_false]
  exact decide_eq_false (Nat.not_le_of_lt hlt)

end

end Sys2Proof.Machine

/-! SUPPORT. INSERT.RETURN (R144) and the return limit (R161). -/

namespace Sys2Proof.Machine

section

variable {s : State} {k c : Nat} {r : Insertion} {ch : Channel} {p : Playback}

theorem handleInsertReturn_outOfRange (h : 15 < k) : handleInsertReturn k s = .refuse .range := if_pos h

theorem handleInsertReturn_idle (hk : k ≤ 15) (h : s.insertions.get k = none) :
    handleInsertReturn k s = .refuse .state := by
  unfold handleInsertReturn
  rw [if_neg (Nat.not_lt.mpr hk), h]

theorem handleInsertReturn_other (hk : k ≤ 15) (hr : s.insertions.get k = some r) (h : r.state ≠ .onLocal ∨ r.brk ≠ none) :
    handleInsertReturn k s = .refuse .state := by
  unfold handleInsertReturn
  rw [if_neg (Nat.not_lt.mpr hk), hr]
  refine if_neg fun hand => ?_
  rcases h with h | h
  · exact h hand.1
  · exact h hand.2

/-- The pending result of a break by the host: COMPLETE exactly at END (R144, R151). -/
def State.hostResult (r : Insertion) (p : Playback) (s : State) : Result :=
  if p.clip = none ∧ (s.reelSteps r.reel).length ≤ p.cursor then .complete else .cutShort

theorem State.hostResult_eq (r : Insertion) (p : Playback) (s : State) :
    (if s.atEnd r p then Result.complete else Result.cutShort) = s.hostResult r p := by
  unfold State.hostResult State.atEnd
  simp only [Bool.and_eq_true, Option.isNone_iff_eq_none, decide_eq_true_eq]

/-- INSERT.RETURN takes the break and tells whether the record is RETURNING. -/
theorem State.Plays.handleInsertReturn_eq (h : s.Plays r c ch p) {q : Insertion} (hk : k ≤ 15)
    (hr : s.insertions.get k = some r) (hl : r.state = .onLocal) (hb : r.brk = none)
    (hq : (s.takeBreak k .host (s.hostResult r p)).insertions.get k = some q) :
    handleInsertReturn k s = .ok (s.takeBreak k .host (s.hostResult r p))
      (beBytes 1 (s.hostResult r p).code ++ encFlag (decide (q.state = .returning))) := by
  unfold handleInsertReturn
  rw [if_neg (Nat.not_lt.mpr hk), hr]
  dsimp only
  rw [if_pos ⟨hl, hb⟩, h.playOf]
  dsimp only
  rw [State.hostResult_eq, hq]

theorem exec_insertReturn_handled {tag : BitVec 16} {record : Byte} (h : s.mayTake (.insertReturn tag record)) :
    exec (.insertReturn tag record) s = .next (s.answered 0x0603#16 tag (handleInsertReturn record.toNat s)) :=
  congrArg Host.Outcome.next (State.request_handled _ _ _ h rfl)

theorem State.hostResult_bytes (r : Insertion) (p : Playback) (s : State) :
    beBytes 1 (s.hostResult r p).code = [if s.hostResult r p = .complete then 0 else 1] := by
  unfold State.hostResult
  split
  · rfl
  · rfl

end

/-- Settles O39: INSERT.RETURN answers with what the break by the host leaves. -/
theorem insertReturn : Obligations.InsertReturn := by
  unfold Obligations.InsertReturn
  refine fun tag record s hmay => ⟨fun hout => ?_, fun hin hother => ?_, fun r c ch p hin hr hl hb hc hch hp hroom =>
    ⟨fun hends x hx => ?_, fun hgoes => ?_⟩⟩
  · rw [exec_insertReturn_handled hmay, handleInsertReturn_outOfRange hout, State.answered_refuse]
  · rw [exec_insertReturn_handled hmay]
    cases hr : s.insertions.get record.toNat with
    | none => rw [handleInsertReturn_idle hin hr, State.answered_refuse]
    | some r => rw [handleInsertReturn_other hin hr (hother r hr), State.answered_refuse]
  · have hplays : s.Plays r c ch p := ⟨hc, hch, hp⟩
    have hexit : s.exitComplete p = true := State.exitComplete_of_exit hends
    have hbreak := hplays.takeBreak_returns hx (cause := .host) (result := s.hostResult r p) hr hl hb hroom hexit
    rw [exec_insertReturn_handled hmay, hplays.handleInsertReturn_eq (q := { r.broken .host (s.hostResult r p) with
      state := .returning }) hin hr hl hb (by rw [hbreak]; exact Table.get_put_same _ _ _), State.answered_ok, hbreak,
      State.hostResult_bytes, State.broughtBack_local (by exact hl)]
    rfl
  · have hplays : s.Plays r c ch p := ⟨hc, hch, hp⟩
    have hne : ¬(p.clip = none ∧ (s.reelSteps r.reel).length ≤ p.cursor) := by
      obtain ⟨cl, _, hcl, _⟩ := hgoes
      exact fun h => Option.some_ne_none cl (hcl.symm.trans h.1)
    have hcut : s.hostResult r p = .cutShort := if_neg hne
    have hbreak := hplays.takeBreak_pends (cause := .host) (result := s.hostResult r p) hr hl hb
      (State.exitComplete_of_goesOn hgoes)
    rw [exec_insertReturn_handled hmay, hplays.handleInsertReturn_eq (q := r.broken .host (s.hostResult r p)) hin hr hl hb
      (by rw [hbreak]; exact Table.get_put_same _ _ _), State.answered_ok, hbreak, State.hostResult_bytes,
      show (r.broken .host (s.hostResult r p)).state = .onLocal from hl, hcut, if_neg hne]
    rfl

/-- Settles O44: the return ends as one that a START cell ends, with the result of the limit. -/
theorem returnLimitForcesReturn : Obligations.ReturnLimitForcesReturn := by
  unfold Obligations.ReturnLimitForcesReturn
  refine fun k r c x s hr ht hst hc hx hroom => ?_
  have hh : r.holds = true := r.holds_iff.mpr (Or.inr hst)
  have hexec : exec (.returnLimitExpiry k) s = .next (s.endReturn k r .forcedReturn) := by
    refine congrArg Host.Outcome.next ?_
    unfold State.expireReturn
    rw [hr]
    exact if_pos ht
  have hrel := State.endReturn_releases (s := s) (k := k) (r := r) (result := .forcedReturn) hroom
  have hend := State.endReturn_room (k := k) (result := .forcedReturn) hh hx hroom
  rw [hc] at hend
  refine ⟨_, hexec, ?_⟩
  generalize s.endReturn k r .forcedReturn = t at hend hrel
  rw [hend] at hrel ⊢
  exact ⟨rfl, rfl, Table.get_put_same _ _ _, rfl, hrel, rfl, rfl, rfl⟩

end Sys2Proof.Machine

/-! SUPPORT. Cues taken (R146 to R150). -/

namespace Sys2Proof.Machine

/-! ## The least index of a table that satisfies a condition -/

theorem Table.firstSuch_least {α : Type} {t : Table α} {p : Nat → α → Bool} {k j : Nat} {v w : α} (hw : t.wf = true)
    (h : t.firstSuch p = some (k, v)) (hm : (j, w) ∈ t) (hp : p j w = true) : k ≤ j := by
  obtain ⟨_, before, after, ht, hbefore⟩ := List.find?_eq_some_iff_append.mp h
  have hsorted := (Table.wf_iff_pairwise t).mp hw
  rw [ht] at hm hsorted
  rcases List.mem_append.mp hm with hm | hm
  · exact absurd hp (by simpa using hbefore (j, w) hm)
  · rcases List.mem_cons.mp hm with hm | hm
    · exact (congrArg Prod.fst hm).ge
    · exact ((List.pairwise_cons.mp (List.pairwise_append.mp hsorted).2.1).1 (j, w) hm).le

section

variable {s : State} {k : Nat} {h : HandedCell} {rest : List HandedCell} {p : CuePayload} {c : TimedCue}

/-! ## A cue taken (R146) -/

theorem exec_cueTake (hq : s.toCue = h :: rest) (hk : h.service = some k) : exec .cueTake s =
    .next (({ s with toCue := rest } : State).handleCue k h.item.arrivalStamp (readCue (h.item.cell.drop 4))) := by
  refine congrArg Host.Outcome.next ?_
  unfold State.takeCue
  simp only [hq, hk]
  rfl

/-- The form of a cue (R146, R203). -/
def CuePayload.formed (p : CuePayload) : Prop :=
  (p.kind = 1 ∨ p.kind = 2 ∨ p.kind = 3) ∧ p.stamp < 640000000 ∧ p.id ≠ 4294967295#32

theorem readCueKind_none {b : Byte} (h : ¬(b = 1 ∨ b = 2 ∨ b = 3)) : readCueKind b = none := by
  obtain ⟨h1, h23⟩ := not_or.mp h
  obtain ⟨h2, h3⟩ := not_or.mp h23
  exact (if_neg h1).trans ((if_neg h2).trans (if_neg h3))

theorem CuePayload.formed_kind (h : p.formed) : ∃ kind, readCueKind p.kind = some kind := by
  rcases h.1 with h | h | h <;> exact ⟨_, congrArg readCueKind h⟩

theorem State.handleCue_unformed {arrival : Option Nat} (h : ¬p.formed) :
    s.handleCue k arrival p = s.ignoreCue k p.id p.kind .format none := by
  unfold State.handleCue
  split
  · rfl
  · next kind hkind =>
    refine if_pos ?_
    by_contra hgood
    obtain ⟨hs, hid⟩ := not_or.mp hgood
    refine h ⟨?_, not_le.mp hs, hid⟩
    by_contra hkinds
    rw [readCueKind_none hkinds] at hkind
    exact nomatch hkind

theorem State.handleCue_formed {kind : CueKind} {arrival : Option Nat} (h : p.formed) (hk : readCueKind p.kind = some kind) :
    s.handleCue k arrival p =
      if p.mask.getLsbD s.site.zone = false then s.ignoreCue k p.id p.kind .zone none
      else
        match arrival, s.currentPos with
        | some a, some cur =>
          s.actOnCue { service := k, id := p.id, kindByte := p.kind, kind := kind, length := p.length
                       slot := s.nearestPos (s.releaseSlot p.stamp) cur, lead := s.holdTime (s.releaseSlot p.stamp) a }
        | _, _ => s.ignoreCue k p.id p.kind .untimed none := by
  unfold State.handleCue
  rw [hk]
  exact if_neg (not_or.mpr ⟨not_le.mpr h.2.1, h.2.2⟩)

theorem State.ignoreCue_room {service : Nat} {id : BitVec 32} {kind : Byte} {reason : CueReason} {record : Option Nat}
    (hr : s.control.notices.length < 64) : s.ignoreCue service id kind reason record = { s with
      control := { s.control with notices := s.noticesWith (.cueIgnored service id kind reason record) } } :=
  State.raise_room _ hr

/-- A cue that passes the three tests acts with its cue slot and its lead. -/
theorem exec_cueTake_acts {a : Nat} {cur : Pos} {kind : CueKind} (hq : s.toCue = h :: rest) (hk : h.service = some k)
    (ha : h.item.arrivalStamp = some a) (hcur : s.currentPos = some cur)
    (hkind : readCueKind (readCue (h.item.cell.drop 4)).kind = some kind) (hf : (readCue (h.item.cell.drop 4)).formed)
    (hz : (readCue (h.item.cell.drop 4)).mask.getLsbD s.site.zone = true) : exec .cueTake s =
      .next (({ s with toCue := rest } : State).actOnCue {
        service := k, id := (readCue (h.item.cell.drop 4)).id, kindByte := (readCue (h.item.cell.drop 4)).kind, kind := kind
        length := (readCue (h.item.cell.drop 4)).length
        slot := s.nearestPos (s.releaseSlot (readCue (h.item.cell.drop 4)).stamp) cur
        lead := s.holdTime (s.releaseSlot (readCue (h.item.cell.drop 4)).stamp) a }) := by
  have hcur' : ({ s with toCue := rest } : State).currentPos = some cur := hcur
  rw [exec_cueTake hq hk, State.handleCue_formed hf hkind, if_neg (by simp [hz]), ha, hcur']
  rfl

theorem State.currentPos_known (h : s.time.epochKnown = true) :
    s.currentPos = some { second := s.assembler.slotSecond, slot := s.assembler.slot } := if_pos h

theorem State.currentPos_unknown (h : s.time.epochKnown = false) : s.currentPos = none :=
  if_neg (ne_true_of_eq_false h)

end

/-! ## Settled -/

/-- Settles O41: each test of R146 that fails raises its notice, in the order of the tests. -/
theorem cueIgnored : Obligations.CueIgnored := by
  unfold Obligations.CueIgnored
  refine fun h rest s k p hq hk hp hroom => ⟨fun hf => ?_, fun hf hz => ?_, fun hf hz hu => ?_⟩
  all_goals
    subst hp
    rw [exec_cueTake hq hk]
  · rw [State.handleCue_unformed (p := readCue (h.item.cell.drop 4)) hf]
    exact congrArg Host.Outcome.next (State.ignoreCue_room hroom)
  · obtain ⟨kind, hkind⟩ := CuePayload.formed_kind (p := readCue (h.item.cell.drop 4)) hf
    rw [State.handleCue_formed (p := readCue (h.item.cell.drop 4)) hf hkind]
    exact congrArg Host.Outcome.next ((if_pos hz).trans (State.ignoreCue_room hroom))
  · obtain ⟨kind, hkind⟩ := CuePayload.formed_kind (p := readCue (h.item.cell.drop 4)) hf
    rw [State.handleCue_formed (p := readCue (h.item.cell.drop 4)) hf hkind]
    refine congrArg Host.Outcome.next ((if_neg (ne_false_of_eq_true hz)).trans ?_)
    split
    · next a cur ha hcur =>
      rcases hu with hu | hu
      · rw [hu] at ha
        exact nomatch ha
      · rw [State.currentPos_unknown (s := { s with toCue := rest }) hu] at hcur
        exact nomatch hcur
    · exact State.ignoreCue_room hroom

end Sys2Proof.Machine

/-! SUPPORT. Cues at the record that holds their service (R147, R149, R150). -/

namespace Sys2Proof.Machine

section

variable {s : State} {i : Nat} {r : Insertion} {c : TimedCue}

theorem State.reachedNow_cur {q cur : Pos} (hc : s.currentPos = some cur) :
    s.reachedNow (some q) = true ↔ 0 ≤ Pos.diff s.n cur q := by
  unfold State.reachedNow
  simp only [hc, Pos.reached, decide_eq_true_eq]

theorem State.reachedNow_none : s.reachedNow none = false := rfl

/-! ## IN (R150) -/

/-- The id or the trigger of the cue is the record's (R150). -/
theorem Insertion.endedByIn_iff {id : BitVec 32} : r.endedByIn id = true ↔
    (r.matched = some id ∨ ∃ q m, r.trigger = .atSlot q m) ∧ (r.endRule = .cue ∨ r.endRule = .reel) ∧ r.brk = none := by
  unfold Insertion.endedByIn
  cases r.trigger <;> simp [and_assoc]

theorem State.inCue_other (hh : s.holder c.service = some (i, r)) (h : ¬(r.state = .onLocal ∧ r.endedByIn c.id = true)) :
    s.inCue c = s := by
  unfold State.inCue
  rw [hh]
  exact if_neg h

theorem State.inCue_waits (hh : s.holder c.service = some (i, r)) (h : r.state = .onLocal ∧ r.endedByIn c.id = true)
    (hn : s.reachedNow (some c.slot) = false) : s.inCue c = s.putRecord i { r with breakSlot := some c.slot } := by
  unfold State.inCue
  rw [hh]
  exact (if_pos h).trans (if_neg (ne_true_of_eq_false hn))

theorem State.inCue_breaks (hh : s.holder c.service = some (i, r)) (h : r.state = .onLocal ∧ r.endedByIn c.id = true)
    (hn : s.reachedNow (some c.slot) = true) :
    s.inCue c = (s.putRecord i { r with breakSlot := some c.slot }).takeBreak i .endRule .complete := by
  unfold State.inCue
  rw [hh]
  exact (if_pos h).trans (if_pos hn)

/-! ## CANCEL (R149) -/

theorem State.cancelCue_other (hh : s.holder c.service = some (i, r)) (h : r.matched ≠ some c.id ∨ r.state = .returning) :
    s.cancelCue c = s := by
  unfold State.cancelCue
  rw [hh]
  dsimp only
  split
  · next hm =>
    rw [h.resolve_left (not_not.mpr hm)]
  · rfl

theorem State.cancelCue_primed (hh : s.holder c.service = some (i, r)) (hm : r.matched = some c.id) (hs : r.state = .primed) :
    s.cancelCue c = s.unprime i r := by
  unfold State.cancelCue
  rw [hh]
  dsimp only
  rw [if_pos hm, hs]

theorem State.cancelCue_local (hh : s.holder c.service = some (i, r)) (hm : r.matched = some c.id)
    (hs : r.state = .onLocal) : s.cancelCue c = s.takeBreak i .cancelCue .cutShort := by
  unfold State.cancelCue
  rw [hh]
  dsimp only
  rw [if_pos hm, hs]

theorem State.unprime_room {ch : Nat} {x : ServiceEntry} (hs : r.state = .primed) (hc : r.channel = some ch)
    (hx : s.services.get r.service = some x) (hr : s.control.notices.length < 64) : s.unprime i r = { s with
      insertions := s.insertions.put i { r with
        state := .armed, splice := none, breakSlot := none, matched := none, channel := none }
      channels := s.channels.del ch
      services := s.services.put r.service { x with splice := .network, active := none }
      control := { s.control with notices := s.noticesWith (.insert i r.service .primed .armed (.brk .cancelCue) none
        s.currentNumber) } } := by
  have hsplice : (s.releaseChannel r.channel).setSplice r.service .network none = { s with
      channels := s.channels.del ch
      services := s.services.put r.service { x with splice := .network, active := none } } := by
    rw [hc, ← Table.update_of_get (fun e : ServiceEntry => { e with splice := .network, active := none }) hx]
    rfl
  unfold State.unprime
  dsimp only
  rw [hsplice, hs]
  exact State.raise_room _ hr

/-! ## A repeated OUT (R147) -/

theorem State.outCue_own (hh : s.holder c.service = some (i, r)) (hm : r.matched = some c.id) :
    s.outCue c = s.repeatOut i r c := by
  unfold State.outCue
  rw [hh]
  exact if_pos hm

theorem State.repeatOut_other (h : r.state = .onLocal ∨ r.state = .returning) : s.repeatOut i r c = s := by
  unfold State.repeatOut
  rcases h with h | h <;> rw [h]

theorem State.leadTooShort_iff : s.leadTooShort c = true ↔ c.lead < 2 * s.site.period := decide_eq_true_iff

theorem State.repeatOut_still (hs : r.state = .primed)
    (h : c.lead < 2 * s.site.period ∨ 300000000 < c.lead ∨ s.reachedNow (some c.slot) = true) : s.repeatOut i r c = s := by
  unfold State.repeatOut
  rw [hs]
  refine if_pos ?_
  rw [Bool.or_eq_true, Bool.or_eq_true, State.leadTooShort_iff, decide_eq_true_iff, or_assoc]
  exact h

theorem State.repeatOut_moves (hs : r.state = .primed) (h2 : 2 * (s.site.period : Int) ≤ c.lead) (h3 : c.lead ≤ 300000000)
    (hn : s.reachedNow (some c.slot) = false) : s.repeatOut i r c = { s with insertions := s.insertions.put i { r with
      splice := some c.slot, breakSlot := breakSlotMoved s.n r c.length c.slot } } := by
  unfold State.repeatOut
  rw [hs]
  refine if_neg ?_
  rw [Bool.or_eq_true, Bool.or_eq_true, State.leadTooShort_iff, decide_eq_true_iff, hn]
  exact not_or.mpr ⟨not_or.mpr ⟨not_lt.mpr h2, not_lt.mpr h3⟩, Bool.false_ne_true⟩

theorem breakSlotMoved_eq {n length : Nat} {gS slot : Pos} (hg : r.splice = some gS) :
    breakSlotMoved n r length slot = (match r.endRule with
      | .fixed l => some (slot.add n l)
      | _ => if 0 < length then some (slot.add n length)
        else r.breakSlot.map (fun old => old.add n (Pos.diff n slot gS))) := by
  unfold breakSlotMoved breakSlotFor
  cases r.endRule with
  | fixed l => rfl
  | _ =>
    dsimp only
    split_ifs
    · rfl
    · rw [hg]
      cases r.breakSlot <;> rfl

/-! ## A cue acts by its type (R146) -/

theorem State.actOnCue_out (h : c.kind = .out) : s.actOnCue c = s.outCue c := by
  unfold State.actOnCue
  rw [h]

theorem State.actOnCue_in (h : c.kind = .in) : s.actOnCue c = s.inCue c := by
  unfold State.actOnCue
  rw [h]

theorem State.actOnCue_cancel (h : c.kind = .cancel) : s.actOnCue c = s.cancelCue c := by
  unfold State.actOnCue
  rw [h]

end

/-! ## Settled -/

/-- Settles O43: each type of cue by what the record that holds its service allows. -/
theorem cuesAtHeldRecord : Obligations.CuesAtHeldRecord := by
  unfold Obligations.CuesAtHeldRecord
  refine ⟨fun h rest s k a kind hq hk ha hepoch hkind hstamp hid hz => ?_, fun c s i r hh => ⟨fun hc hl hb hm he hn => ?_,
    fun hc hother => ?_, fun hc hother => ?_, fun ch x hc hm hs hch hx hr => ?_, fun gS hc hm hs hg h2 h3 hn => ?_,
    fun hc hm hs hstill => ?_, fun hc hm hs => ?_, fun hc hm hr hl hb => ?_,
    fun cn ch p x hr hl hb hcn hch hp hx hroom => ⟨fun hc hm => ?_, fun hc hm he hn => ?_⟩⟩⟩
  · have hform : (readCue (h.item.cell.drop 4)).formed :=
      ⟨hkind.imp And.left (fun h => h.imp And.left And.left), hstamp, hid⟩
    have hread : readCueKind (readCue (h.item.cell.drop 4)).kind = some kind := by
      rcases hkind with ⟨hb, rfl⟩ | ⟨hb, rfl⟩ | ⟨hb, rfl⟩ <;> exact congrArg readCueKind hb
    exact ⟨_, State.currentPos_known hepoch,
      exec_cueTake_acts hq hk ha (State.currentPos_known hepoch) hread hform hz⟩
  · rw [State.actOnCue_in hc, State.inCue_waits hh ⟨hl, Insertion.endedByIn_iff.mpr ⟨hm, he, hb⟩⟩ hn]
    rfl
  · rw [State.actOnCue_in hc]
    refine State.inCue_other hh fun ⟨hl, hend⟩ => ?_
    obtain ⟨hm, he, hb⟩ := Insertion.endedByIn_iff.mp hend
    rcases hother with h | h | ⟨l, h⟩ | ⟨hne, id, htrigger⟩
    · exact h hl
    · exact h hb
    · rcases he with he | he <;> exact nomatch h.symm.trans he
    · obtain ⟨q, m, hat⟩ := hm.resolve_left hne
      exact nomatch htrigger.symm.trans hat
  · rw [State.actOnCue_cancel hc, State.cancelCue_other hh hother]
  · rw [State.actOnCue_cancel hc, State.cancelCue_primed hh hm hs, State.unprime_room hs hch hx hr]
  · rw [State.actOnCue_out hc, State.outCue_own hh hm, State.repeatOut_moves hs h2 h3 hn]
    exact congrArg (fun b => ({ s with insertions := s.insertions.put i { r with
      splice := some c.slot, breakSlot := b } } : State)) (breakSlotMoved_eq hg)
  · rw [State.actOnCue_out hc, State.outCue_own hh hm, State.repeatOut_still hs hstill]
  · rw [State.actOnCue_out hc, State.outCue_own hh hm, State.repeatOut_other hs]
  · rw [State.actOnCue_cancel hc, State.cancelCue_local hh hm hl, State.takeBreak_not_local _ _ hr (Or.inr hb)]
  · have hplays : s.Plays r cn ch p := ⟨hcn, hch, hp⟩
    rw [State.actOnCue_cancel hc, State.cancelCue_local hh hm hl]
    refine ⟨fun hends => ?_, fun hgoes => ?_⟩
    · rw [hplays.takeBreak_returns hx hr hl hb hroom (State.exitComplete_of_exit hends),
        State.broughtBack_local (by exact hl)]
      rfl
    · exact hplays.takeBreak_pends hr hl hb (State.exitComplete_of_goesOn hgoes)
  · have hplays : (s.putRecord i { r with breakSlot := some c.slot }).Plays { r with breakSlot := some c.slot } cn ch p :=
      ⟨hcn, hch, hp⟩
    have hget : (s.putRecord i { r with breakSlot := some c.slot }).insertions.get i =
        some { r with breakSlot := some c.slot } := Table.get_put_same _ _ _
    rw [State.actOnCue_in hc, State.inCue_breaks hh ⟨hl, Insertion.endedByIn_iff.mpr ⟨hm, he, hb⟩⟩ hn]
    refine ⟨fun hends => ?_, fun hgoes => ?_⟩
    · rw [hplays.takeBreak_returns hx hget hl hb hroom (State.exitComplete_of_exit hends), State.broughtBack_putRecord,
        State.broughtBack_local (by exact hl)]
      rfl
    · rw [hplays.takeBreak_pends hget hl hb (State.exitComplete_of_goesOn hgoes), State.putRecord, Table.put_put]
      rfl

end Sys2Proof.Machine

/-! SUPPORT. An OUT cue that primes or ends a record (R148). -/

namespace Sys2Proof.Machine

section

variable {s : State} {i j ch : Nat} {r q : Insertion} {c : TimedCue} {result : Result}

/-! ## Who waits, who holds, and the free channel -/

theorem Trigger.matches_iff {t : Trigger} {id : BitVec 32} :
    t.matches id = true ↔ t = .cue id ∨ t = .cue 4294967295#32 := by
  cases t with
  | cue own =>
    unfold Trigger.matches
    rw [Bool.or_eq_true, decide_eq_true_iff, decide_eq_true_iff, Trigger.cue.injEq, Trigger.cue.injEq]
    rfl
  | atSlot second slot => exact ⟨fun h => (nomatch h), fun h => (by rcases h with h | h <;> exact nomatch h)⟩

/-- A record waits for the cue (R148). -/
def Insertion.awaitsCue (r : Insertion) (c : TimedCue) : Prop :=
  r.state = .armed ∧ r.service = c.service ∧ (r.trigger = .cue c.id ∨ r.trigger = .cue 4294967295#32)

theorem Insertion.awaitsCue_iff : (decide (r.state = .armed) && decide (r.service = c.service) && r.trigger.matches c.id) =
    true ↔ r.awaitsCue c := by
  rw [Bool.and_eq_true, Bool.and_eq_true, decide_eq_true_iff, decide_eq_true_iff, Trigger.matches_iff, and_assoc]
  rfl

theorem State.armedMatch_some (h : s.armedMatch c = some (i, r)) : (i, r) ∈ s.insertions ∧ r.awaitsCue c := by
  obtain ⟨hm, hp⟩ := Table.firstSuch_some h
  exact ⟨hm, Insertion.awaitsCue_iff.mp hp⟩

theorem State.armedMatch_least (hw : s.insertions.wf = true) (h : s.armedMatch c = some (i, r)) (hm : (j, q) ∈ s.insertions)
    (hq : q.awaitsCue c) : i ≤ j := Table.firstSuch_least hw h hm (Insertion.awaitsCue_iff.mpr hq)

theorem State.armedMatch_none (h : s.armedMatch c = none) (hm : (j, q) ∈ s.insertions) : ¬q.awaitsCue c := by
  have hp := Table.firstSuch_none h hm
  exact fun hq => Bool.false_ne_true (hp.symm.trans (Insertion.awaitsCue_iff.mpr hq))

theorem State.freeChannel_some (h : s.freeChannel = some ch) :
    ch < 8 ∧ s.channels.get ch = none ∧ ∀ j, j < ch → s.channels.get j ≠ none := by
  obtain ⟨hfree, hlt, hbelow⟩ := List.find?_range_eq_some.mp h
  refine ⟨List.mem_range.mp hlt, Option.isNone_iff_eq_none.mp hfree, fun j hj hnone => ?_⟩
  have hheld := hbelow j hj
  rw [hnone] at hheld
  exact nomatch hheld

theorem State.freeChannel_none (h : s.freeChannel = none) (hj : j < 8) : s.channels.get j ≠ none := by
  intro hnone
  have hheld := List.find?_eq_none.mp h j (List.mem_range.mpr hj)
  rw [hnone] at hheld
  exact hheld rfl

/-- The lowest free channel, told by what stands at the channels. -/
theorem State.freeChannel_of (hlt : ch < 8) (hfree : s.channels.get ch = none) (hbelow : ∀ j, j < ch → s.channels.get j ≠ none) :
    s.freeChannel = some ch := by
  refine List.find?_range_eq_some.mpr ⟨Option.isNone_iff_eq_none.mpr hfree, List.mem_range.mpr hlt, fun j hj => ?_⟩
  cases hc : s.channels.get j with
  | none => exact absurd hc (hbelow j hj)
  | some x => rfl

theorem State.freeChannel_all_held (h : ∀ c, c < 8 → s.channels.get c ≠ none) : s.freeChannel = none := by
  refine List.find?_eq_none.mpr fun j hj => ?_
  cases hc : s.channels.get j with
  | none => exact absurd hc (h j (List.mem_range.mp hj))
  | some x => exact Bool.false_ne_true

theorem TimedCue.eq_mk {id : BitVec 32} {kindByte : Byte} {kind : CueKind} {length : Nat} {slot : Pos} {lead : Int}
    (hid : c.id = id) (hb : c.kindByte = kindByte) (hk : c.kind = kind) (hl : c.length = length) (hs : c.slot = slot)
    (hd : c.lead = lead) : c = { service := c.service, id, kindByte, kind, length, slot, lead } := by
  rw [← hid, ← hb, ← hk, ← hl, ← hs, ← hd]

/-- Under REEL and CUE a break length of 0 sets no break slot (R148). -/
theorem breakSlotFor_open {n length : Nat} {rule : EndRule} {gS : Pos} (h : rule = .reel ∨ rule = .cue) :
    breakSlotFor n rule length gS = if length = 0 then none else some (gS.add n length) := by
  have hflip : (if 0 < length then some (gS.add n length) else none) =
      if length = 0 then none else some (gS.add n length) := by
    by_cases hl : length = 0
    · rw [if_neg (by omega), if_pos hl]
    · rw [if_pos (by omega), if_neg hl]
  rcases h with h | h <;> rw [h] <;> exact hflip

/-! ## The cue at the record it is matched to -/

/-- The cue is not the one that the record holding its service was primed by (R147). -/
def State.foreign (c : TimedCue) (s : State) : Prop :=
  s.holder c.service = none ∨ ∃ j q, s.holder c.service = some (j, q) ∧ q.matched ≠ some c.id

theorem State.outCue_foreign (h : s.foreign c) : s.outCue c = (match s.armedMatch c with
    | some (k, r) => s.primeByCue k r c
    | none => s) := by
  unfold State.outCue
  rcases h with h | ⟨j, q, h, hne⟩
  · rw [h] <;> rfl
  · rw [h]
    exact if_neg hne

theorem State.outCue_matched (h : s.foreign c) (hm : s.armedMatch c = some (i, r)) :
    s.outCue c = s.primeByCue i r c := by
  rw [State.outCue_foreign h, hm]

theorem State.outCue_unmatched (h : s.foreign c) (hm : s.armedMatch c = none) : s.outCue c = s := by
  rw [State.outCue_foreign h, hm]

theorem State.primeByCue_busy (h : s.holder c.service = some (j, q)) :
    s.primeByCue i r c = s.ignoreCue c.service c.id c.kindByte .busy (some i) :=
  if_pos (by rw [h]; rfl)

theorem State.primeByCue_free (h : s.holder c.service = none) : s.primeByCue i r c =
    if s.leadTooShort c || s.reachedNow (some c.slot) then s.finish i r .abortedLateCue
    else if (Config.farMax : Int) < c.lead then s.ignoreCue c.service c.id c.kindByte .far (some i)
    else
      match s.freeChannel with
      | none => s.finish i r .abortedNoChannel
      | some ch => (s.prime i ch (r.primedBy s.n ch c)).insertNotice i r.state (r.primedBy s.n ch c) .outCue :=
  if_neg (by rw [h]; exact Bool.false_ne_true)

theorem State.tooLate_iff : (s.leadTooShort c || s.reachedNow (some c.slot)) = true ↔
    c.lead < 2 * s.site.period ∨ s.reachedNow (some c.slot) = true := by
  rw [Bool.or_eq_true, State.leadTooShort_iff]

/-- An ARMED record that ends (R133, R164). -/
theorem State.finish_armed (hs : r.state = .armed) (hr : s.control.notices.length < 64) : s.finish i r result = { s with
    insertions := s.insertions.put i (r.ended result s.currentPos)
    reels := (s.finish i r result).reels
    clips := (s.finish i r result).clips
    control := { s.control with
      notices := s.noticesWith (.insert i r.service .armed .done (.result result) r.matched s.currentNumber) } } := by
  have hn : ¬r.holds = true := fun h => by
    rcases r.holds_iff.mp h with h | h | h <;> exact nomatch hs.symm.trans h
  rw [State.finish_room hr, State.enterDone_of_not_holds hn, Insertion.endNotice, hs]
  rfl

theorem State.finish_releases (hr : s.control.notices.length < 64) : s.releases r.reel (s.finish i r result) := by
  have hrel := State.enterDone_releases i r result s
  rw [State.finish_room hr]
  exact hrel

/-- A record primed by an OUT cue, with its notice. -/
theorem State.prime_room (hs : r.state = .armed) (hr : s.control.notices.length < 64) (q : Insertion)
    (hq : q.state = .primed) (cause : InsertCause) : (s.prime i ch q).insertNotice i r.state q cause = { s with
      channels := s.channels.put ch { record := i, play := none }
      services := (s.prime i ch q).services
      insertions := s.insertions.put i q
      control := { s.control with
        notices := s.noticesWith (.insert i q.service .armed .primed cause q.matched s.currentNumber) } } := by
  unfold State.insertNotice
  rw [hs, hq]
  exact State.raise_room (s := s.prime i ch q) _ hr

theorem State.prime_service {x : ServiceEntry} (hx : s.services.get q.service = some x) :
    (s.prime i ch q).services.get q.service = some { x with splice := .primed, active := some i } :=
  State.updateService_get (s := { s with channels := s.channels.put ch { record := i, play := none } }) _ hx

end

/-! ## Settled -/

/-- Settles O42: the cue acts on the state without it, by the ladder of R148. -/
theorem outCuePrimes : Obligations.OutCuePrimes := by
  unfold Obligations.OutCuePrimes
  intro h rest s k a c hq hk ha hepoch hkind hstamp hid hz hcs hcid hck hckb hcl hlead hslot hroom
  subst hcs
  let u : State := { s with toCue := rest }
  have hform : (readCue (h.item.cell.drop 4)).formed := ⟨Or.inl hkind, hstamp, hid⟩
  have hcue : exec .cueTake s = .next (u.outCue c) := by
    have hact := exec_cueTake_acts hq hk ha (State.currentPos_known hepoch) (congrArg readCueKind hkind) hform hz
    have hc : c = _ := TimedCue.eq_mk hcid (hckb.trans hkind.symm) hck hcl (hslot _ (State.currentPos_known hepoch)) hlead
    refine hact.trans (congrArg Host.Outcome.next (Eq.trans ?_ (State.actOnCue_out (s := u) hck)))
    exact congrArg u.actOnCue hc.symm
  have hends : ∀ i r result, u.outCue c = u.finish i r result → r.state = .armed → ∃ (t : State), exec .cueTake s = .next t ∧
        t = { s with
          toCue := rest
          insertions := s.insertions.put i { r with
            state := .done, result := some result, endSlot := s.currentPos, channel := none, timer := none }
          reels := t.reels
          clips := t.clips
          control := { s.control with notices := s.noticesWith (.insert i r.service .armed .done (.result result)
            r.matched s.currentNumber) } } ∧
        s.releases r.reel t := fun i r result ho hs =>
    ⟨_, hcue.trans (congrArg _ ho), State.finish_armed (s := u) hs hroom, State.finish_releases (s := u) hroom⟩
  refine ⟨fun hf hm => hcue.trans (congrArg _ (State.outCue_unmatched (s := u) hf hm)), fun i r hm => ?_,
    fun hm j q hj => State.armedMatch_none hm hj, fun i r hh => ?_, fun hh j q hj hq => ?_, fun ch => State.freeChannel_some,
    fun hn j => State.freeChannel_none hn, fun cur hcur => State.reachedNow_cur hcur, fun i r j q hm hh hne => ?_,
    fun i r hm hh => ?_⟩
  · exact ⟨(State.armedMatch_some hm).1, (State.armedMatch_some hm).2, fun hw j q hj => State.armedMatch_least hw hm hj⟩
  · obtain ⟨hmem, hholds, hservice⟩ := State.holder_some hh
    exact ⟨hmem, r.holds_iff.mp hholds, hservice⟩
  · exact State.holder_none hh hj (q.holds_iff.mpr hq.1) hq.2
  · rw [hcue, State.outCue_matched (s := u) (Or.inr ⟨j, q, hh, hne⟩) hm, State.primeByCue_busy (s := u) hh, hckb]
    exact congrArg Host.Outcome.next (State.ignoreCue_room (s := u) hroom)
  · have hladder : u.outCue c = _ := (State.outCue_matched (s := u) (Or.inl hh) hm).trans (State.primeByCue_free (s := u) hh)
    have hstate : r.state = .armed := (State.armedMatch_some hm).2.1
    refine ⟨fun hlate => hends _ _ _ (hladder.trans (if_pos (State.tooLate_iff.mpr hlate))) hstate, fun h2 hn h3 => ?_,
      fun h2 hn h3 hno => ?_, fun ch h2 hn h3 hfree => ?_⟩
    all_goals
      have hearly : ¬(u.leadTooShort c || u.reachedNow (some c.slot)) = true := fun hlate => by
        rcases State.tooLate_iff.mp hlate with hl | hl
        · exact absurd hl (not_lt.mpr h2)
        · exact Bool.false_ne_true (hn.symm.trans hl)
    · refine hcue.trans (congrArg _ (hladder.trans ((if_neg hearly).trans ((if_pos h3).trans ?_))))
      rw [hckb]
      exact State.ignoreCue_room (s := u) hroom
    · refine hends _ _ _ (hladder.trans ((if_neg hearly).trans ((if_neg (not_lt.mpr h3)).trans ?_))) hstate
      rw [show u.freeChannel = none from hno]
    · have hprime : u.outCue c = _ := hladder.trans ((if_neg hearly).trans ((if_neg (not_lt.mpr h3)).trans (by
        rw [show u.freeChannel = some ch from hfree])))
      have hprimed := hprime.trans (State.prime_room (s := u) hstate hroom (r.primedBy s.n ch c) rfl .outCue)
      refine ⟨_, r.primedBy s.n ch c, hcue.trans (congrArg _ hprimed), rfl, rfl, rfl,
        fun l hl => ?_, fun hrule => ?_, rfl, fun x hx => State.prime_service (s := u) hx, rfl, rfl, rfl, rfl, rfl⟩
      · exact congrArg (fun rule => breakSlotFor s.n rule c.length c.slot) hl
      · exact breakSlotFor_open hrule

end Sys2Proof.Machine

/-! SUPPORT. INSERT.ARM (R141, R142). -/

namespace Sys2Proof.Machine

section

variable {s : State} {b : InsertArmBody} {q : ArmRequest} {x : ServiceEntry} {second : Epoch} {slot ch : Nat}

/-! ## The checks (R141) -/

/-- The record asked for is in use. -/
def State.recordBusy (k : Nat) (s : State) : Prop := ∃ r, s.insertions.get k = some r ∧ r.state ≠ .done

/-- The reel has steps, and every clip it plays is READY. -/
def State.reelReady (reel : Nat) (s : State) : Prop := s.reelSteps reel ≠ [] ∧
  ∀ c, .play c ∈ s.reelSteps reel → ∃ e, s.clips.get c = some e ∧ e.ready = true

/-- Every clip of the reel has the site's slot period and no component that the service has not. -/
def State.reelFits (reel : Nat) (x : ServiceEntry) (s : State) : Prop :=
  ∀ c e, .play c ∈ s.reelSteps reel → s.clips.get c = some e →
    e.period = s.site.period ∧ e.highest.getD 0 < x.components.length

theorem State.clipsAll_iff {steps : List ReelStep} {p : ClipEntry → Bool} :
    s.clipsAll steps p = true ↔ ∀ c, .play c ∈ steps → ∃ e, s.clips.get c = some e ∧ p e = true := by
  unfold State.clipsAll
  rw [List.all_eq_true]
  refine ⟨fun h c hc => ?_, fun h step hs => ?_⟩
  · have hp := h _ hc
    dsimp only at hp
    split at hp
    · next e he => exact ⟨e, he, hp⟩
    · exact nomatch hp
  · cases step with
    | play c =>
      obtain ⟨e, he, hp⟩ := h c hs
      dsimp only
      rw [he]
      exact hp
    | loop n => rfl
    | next => rfl
    | hold => rfl

theorem State.reelReady_iff {reel : Nat} : ((s.reelSteps reel).isEmpty || !s.clipsAll (s.reelSteps reel) (fun e => e.ready)) =
    true ↔ ¬s.reelReady reel := by
  rw [Bool.or_eq_true, Bool.not_eq_true', List.isEmpty_iff, ← Bool.not_eq_true, State.clipsAll_iff, State.reelReady]
  tauto

theorem State.reelFits_iff {reel : Nat} (hr : s.reelReady reel) : (!s.clipsAll (s.reelSteps reel)
    (fun e => decide (e.period = s.site.period) && decide (e.highest.getD 0 < x.components.length))) = true ↔
      ¬s.reelFits reel x := by
  rw [Bool.not_eq_true', ← Bool.not_eq_true, State.clipsAll_iff, not_iff_not]
  refine ⟨fun h c e hc he => ?_, fun h c hc => ?_⟩
  · obtain ⟨e', he', hp⟩ := h c hc
    obtain rfl : e' = e := Option.some.inj (he'.symm.trans he)
    simpa using hp
  · obtain ⟨e, he, _⟩ := hr.2 c hc
    exact ⟨e, he, by simpa using h c e hc he⟩

theorem State.recordBusy_iff {k : Nat} : (match s.insertions.get k with
    | some r => decide (r.state ≠ .done)
    | none => false) = true ↔ s.recordBusy k := by
  unfold State.recordBusy
  split
  · next r hr => simp [hr]
  · next hr => simp [hr]

theorem handleInsertArm_outOfRange (h : readInsertArm s.n b = none) : handleInsertArm b s = .refuse .range := by
  unfold handleInsertArm
  rw [h]

theorem handleInsertArm_busy (hq : readInsertArm s.n b = some q) (hb : s.recordBusy q.record) :
    handleInsertArm b s = .refuse .busy := by
  unfold handleInsertArm
  rw [hq]
  exact if_pos (State.recordBusy_iff.mpr hb)

theorem handleInsertArm_noService (hq : readInsertArm s.n b = some q) (hb : ¬s.recordBusy q.record)
    (hx : s.services.get q.service = none) : handleInsertArm b s = .refuse .noService := by
  unfold handleInsertArm
  rw [hq]
  refine (if_neg (mt State.recordBusy_iff.mp hb)).trans ?_
  rw [hx]

/-- What is left once the record is free and the service valid. -/
theorem handleInsertArm_valid (hq : readInsertArm s.n b = some q) (hb : ¬s.recordBusy q.record)
    (hx : s.services.get q.service = some x) : handleInsertArm b s =
      if (s.reelSteps q.reel).isEmpty || !s.clipsAll (s.reelSteps q.reel) (fun e => e.ready) then .refuse .notReady
      else if !s.clipsAll (s.reelSteps q.reel) (fun e => decide (e.period = s.site.period) &&
          decide (e.highest.getD 0 < x.components.length)) then .refuse .mismatch
      else
        match q.trigger with
        | .cue _ =>
          .ok ((s.changeHolds q.reel (· + 1)).putRecord q.record q.armed)
            (beBytes 1 q.armed.state.code ++ encOptNat 1 none ++ encOpt 7 Pos.fields none)
        | .atSlot second slot => handleArmAt q second slot s := by
  unfold handleInsertArm
  rw [hq]
  refine (if_neg (mt State.recordBusy_iff.mp hb)).trans ?_
  rw [hx] <;> rfl

theorem handleInsertArm_notReady (hq : readInsertArm s.n b = some q) (hb : ¬s.recordBusy q.record)
    (hx : s.services.get q.service = some x) (hr : ¬s.reelReady q.reel) : handleInsertArm b s = .refuse .notReady :=
  (handleInsertArm_valid hq hb hx).trans (if_pos (State.reelReady_iff.mpr hr))

theorem handleInsertArm_mismatch (hq : readInsertArm s.n b = some q) (hb : ¬s.recordBusy q.record)
    (hx : s.services.get q.service = some x) (hr : s.reelReady q.reel) (hf : ¬s.reelFits q.reel x) :
    handleInsertArm b s = .refuse .mismatch :=
  (handleInsertArm_valid hq hb hx).trans ((if_neg (fun h => State.reelReady_iff.mp h hr)).trans
    (if_pos ((State.reelFits_iff hr).mpr hf)))

theorem handleInsertArm_cue {id : BitVec 32} (hq : readInsertArm s.n b = some q) (hb : ¬s.recordBusy q.record)
    (hx : s.services.get q.service = some x) (hr : s.reelReady q.reel) (hf : s.reelFits q.reel x)
    (ht : q.trigger = .cue id) : handleInsertArm b s = .ok ((s.changeHolds q.reel (· + 1)).putRecord q.record q.armed)
      (beBytes 1 q.armed.state.code ++ encOptNat 1 none ++ encOpt 7 Pos.fields none) := by
  refine (handleInsertArm_valid hq hb hx).trans ((if_neg (fun h => State.reelReady_iff.mp h hr)).trans
    ((if_neg (fun h => (State.reelFits_iff hr).mp h hf)).trans ?_))
  rw [ht]

theorem handleInsertArm_atSlot (hq : readInsertArm s.n b = some q) (hb : ¬s.recordBusy q.record)
    (hx : s.services.get q.service = some x) (hr : s.reelReady q.reel) (hf : s.reelFits q.reel x)
    (ht : q.trigger = .atSlot second slot) : handleInsertArm b s = handleArmAt q second slot s := by
  refine (handleInsertArm_valid hq hb hx).trans ((if_neg (fun h => State.reelReady_iff.mp h hr)).trans
    ((if_neg (fun h => (State.reelFits_iff hr).mp h hf)).trans ?_))
  rw [ht]

/-! ## The AT trigger -/

theorem handleArmAt_untimed (h : s.time.epochKnown = false) : handleArmAt q second slot s = .refuse .untimed :=
  if_pos (by rw [h]; rfl)

/-- What is left once the epoch is known. -/
theorem handleArmAt_timed (h : s.time.epochKnown = true) : handleArmAt q second slot s =
    if s.distanceTo second slot < 2 * s.site.period then .refuse .late
    else if (Config.farMax : Int) < s.distanceTo second slot then .refuse .range
    else if s.spliceOf q.service ≠ .network then .refuse .conflict
    else
      match s.freeChannel with
      | none => .refuse .noChannel
      | some ch =>
        .ok ((s.changeHolds q.reel (· + 1)).prime q.record ch { q.armed with
            state := .primed, splice := some { second := second, slot := slot }, channel := some ch
            breakSlot := breakSlotFor s.n q.endRule 0 { second := second, slot := slot } })
          (beBytes 1 RecordState.primed.code ++ encOptNat 1 (some ch) ++
            encOpt 7 Pos.fields (some { second := second, slot := slot })) := by
  unfold handleArmAt
  refine (if_neg (by rw [h]; exact Bool.false_ne_true)).trans ?_
  rfl

theorem handleArmAt_late (h : s.time.epochKnown = true) (hl : s.distanceTo second slot < 2 * s.site.period) :
    handleArmAt q second slot s = .refuse .late := (handleArmAt_timed h).trans (if_pos hl)

theorem handleArmAt_far (h : s.time.epochKnown = true) (h2 : 2 * (s.site.period : Int) ≤ s.distanceTo second slot)
    (h3 : 300000000 < s.distanceTo second slot) : handleArmAt q second slot s = .refuse .range :=
  (handleArmAt_timed h).trans ((if_neg (not_lt.mpr h2)).trans (if_pos h3))

theorem handleArmAt_conflict (h : s.time.epochKnown = true) (h2 : 2 * (s.site.period : Int) ≤ s.distanceTo second slot)
    (h3 : s.distanceTo second slot ≤ 300000000) (hs : s.spliceOf q.service ≠ .network) :
    handleArmAt q second slot s = .refuse .conflict :=
  (handleArmAt_timed h).trans ((if_neg (not_lt.mpr h2)).trans ((if_neg (not_lt.mpr h3)).trans (if_pos hs)))

theorem handleArmAt_noChannel (h : s.time.epochKnown = true) (h2 : 2 * (s.site.period : Int) ≤ s.distanceTo second slot)
    (h3 : s.distanceTo second slot ≤ 300000000) (hs : s.spliceOf q.service = .network) (hc : s.freeChannel = none) :
    handleArmAt q second slot s = .refuse .noChannel := by
  refine (handleArmAt_timed h).trans ((if_neg (not_lt.mpr h2)).trans ((if_neg (not_lt.mpr h3)).trans
    ((if_neg (not_not.mpr hs)).trans ?_)))
  rw [hc]

theorem handleArmAt_primes (h : s.time.epochKnown = true) (h2 : 2 * (s.site.period : Int) ≤ s.distanceTo second slot)
    (h3 : s.distanceTo second slot ≤ 300000000) (hs : s.spliceOf q.service = .network) (hc : s.freeChannel = some ch) :
    handleArmAt q second slot s = .ok ((s.changeHolds q.reel (· + 1)).prime q.record ch { q.armed with
        state := .primed, splice := some { second := second, slot := slot }, channel := some ch
        breakSlot := breakSlotFor s.n q.endRule 0 { second := second, slot := slot } })
      (beBytes 1 RecordState.primed.code ++ encOptNat 1 (some ch) ++
        encOpt 7 Pos.fields (some { second := second, slot := slot })) := by
  refine (handleArmAt_timed h).trans ((if_neg (not_lt.mpr h2)).trans ((if_neg (not_lt.mpr h3)).trans
    ((if_neg (not_not.mpr hs)).trans ?_)))
  rw [hc]

/-- The break slot that FIXED alone gives a record newly armed (R142). -/
theorem breakSlotFor_armed {n : Nat} {gS : Pos}
    (h : b.endRule = 0#8 ∨ b.endRule = 1#8 ∨ (b.endRule = 2#8 ∧ 1 ≤ b.length.toNat)) :
    breakSlotFor n (if b.endRule = 0#8 then .reel else if b.endRule = 1#8 then .cue else .fixed b.length.toNat) 0 gS =
      if b.endRule = 2#8 then some (gS.add n b.length.toNat) else none := by
  rcases h with h | h | ⟨h, _⟩ <;> rw [h] <;> rfl

/-! ## The holds of a record that is armed (R133) -/

theorem State.changeHolds_raised (reel : Nat) (s : State) :
    (∀ k, (s.changeHolds reel (· + 1)).reels.get k = (s.reels.get k).map (fun r =>
      if k = reel then { r with uses := r.uses + 1 } else r)) ∧
    ∀ k, (s.changeHolds reel (· + 1)).clips.get k = (s.clips.get k).map (fun e =>
      if .play k ∈ s.reelSteps reel then { e with pins := e.pins + 1 } else e) := by
  refine ⟨fun j => ?_, fun j => ?_⟩
  · by_cases hj : j = reel
    · subst hj
      simp only [State.changeHolds, Table.get_update_same, if_true]
    · simp only [State.changeHolds, Table.get_update_other _ _ hj, if_neg hj, Option.map_id']
  · simp only [State.changeHolds, Table.get_mapAt, namesClip_iff]

theorem exec_insertArm_handled {tag : BitVec 16} (h : s.mayTake (.insertArm tag b)) :
    exec (.insertArm tag b) s = .next (s.answered 0x0601#16 tag (handleInsertArm b s)) :=
  congrArg Host.Outcome.next (State.request_handled _ _ _ h rfl)

theorem exec_insertArm_refuses {tag : BitVec 16} {code : ResultCode} (h : s.mayTake (.insertArm tag b))
    (hr : handleInsertArm b s = .refuse code) :
    exec (.insertArm tag b) s = .next (s.refusalWaits 0x0601#16 tag code) := by
  rw [exec_insertArm_handled h, hr, State.answered_refuse]

theorem exec_insertArm_accepts {tag : BitVec 16} {t : State} {f : Bytes} (h : s.mayTake (.insertArm tag b))
    (hr : handleInsertArm b s = .ok t f) : exec (.insertArm tag b) s = .next (t.okWaits 0x0601#16 tag f) := by
  rw [exec_insertArm_handled h, hr, State.answered_ok]

end

/-! ## Settled -/

/-- Settles O38: the ladder of checks of R141, then the record it leaves. -/
theorem insertArm : Obligations.InsertArm := by
  unfold Obligations.InsertArm
  refine fun tag b s hmay => ⟨fun hout => ?_, fun hin => ?_⟩
  · exact exec_insertArm_refuses hmay (handleInsertArm_outOfRange ((readInsertArm_eq s.n b).trans (if_neg hout)))
  · have hq := (readInsertArm_eq s.n b).trans (if_pos hin)
    refine ⟨fun hb => exec_insertArm_refuses hmay (handleInsertArm_busy hq hb),
      fun hb hx => exec_insertArm_refuses hmay (handleInsertArm_noService hq hb hx), fun x hb hx =>
      ⟨fun hr => exec_insertArm_refuses hmay (handleInsertArm_notReady hq hb hx hr),
        fun hr hf => exec_insertArm_refuses hmay (handleInsertArm_mismatch hq hb hx hr hf), fun ht hr hf => ?_,
        fun ht hr hf => ?_⟩⟩
    · exact ⟨_, _, exec_insertArm_accepts hmay (handleInsertArm_cue hq hb hx hr hf (if_pos ht)), rfl,
        s.changeHolds_raised _⟩
    · have hat := handleInsertArm_atSlot hq hb hx hr hf (if_neg (by rw [ht]; decide))
      have hsplice := State.spliceOf_valid hx
      refine ⟨fun h => exec_insertArm_refuses hmay (hat.trans (handleArmAt_untimed h)),
        fun h hl => exec_insertArm_refuses hmay (hat.trans (handleArmAt_late h hl)),
        fun h h2 h3 => exec_insertArm_refuses hmay (hat.trans (handleArmAt_far h h2 h3)),
        fun h h2 h3 hs => exec_insertArm_refuses hmay (hat.trans (handleArmAt_conflict h h2 h3 (hsplice ▸ hs))),
        fun h h2 h3 hs hc => exec_insertArm_refuses hmay (hat.trans (handleArmAt_noChannel h h2 h3 (hsplice.trans hs)
          (State.freeChannel_all_held hc))), fun ch h h2 h3 hs hlt hfree hbelow => ?_⟩
      have hprime := hat.trans (handleArmAt_primes h h2 h3 (hsplice.trans hs) (State.freeChannel_of hlt hfree hbelow))
      refine ⟨_, _, exec_insertArm_accepts hmay hprime, ?_, s.changeHolds_raised _⟩
      have hservices := Table.update_of_get (fun e : ServiceEntry =>
        { e with splice := .primed, active := some b.record.toNat }) hx
      rw [← hservices, ← breakSlotFor_armed hin.2.2.2.2.1]
      rfl

end Sys2Proof.Machine

/-! SUPPORT. A record at a slot boundary: the splice start, the walk of its reel, the break and the exit (R152 to R155). -/

namespace Sys2Proof.Machine

/-! ## Walking the reel (R153) -/

section

variable {steps : List ReelStep} {bound cu : Nat} {st : List LoopFrame}

theorem walk_atEnd (h : steps[cu]? = none) : walk steps (bound + 1) cu st = (cu, st, .atEnd) := by
  simp only [walk, h]

theorem walk_play {clip : Nat} (h : steps[cu]? = some (.play clip)) :
    walk steps (bound + 1) cu st = (cu, st, .play clip) := by
  simp only [walk, h]

theorem walk_hold (h : steps[cu]? = some .hold) : walk steps (bound + 1) cu st = (cu, st, .hold) := by
  simp only [walk, h]

theorem walk_loop {n : Nat} (h : steps[cu]? = some (.loop n)) : walk steps (bound + 1) cu st =
    walk steps bound (cu + 1) ({ bodyStart := cu + 1, remaining := if n = 0 then none else some n } :: st) := by
  simp only [walk, h]

theorem walk_next_endless {frame : LoopFrame} {outer : List LoopFrame} (h : steps[cu]? = some .next)
    (hr : frame.remaining = none) :
    walk steps (bound + 1) cu (frame :: outer) = walk steps bound frame.bodyStart (frame :: outer) := by
  simp only [walk, h, hr]

theorem walk_next_turns {frame : LoopFrame} {outer : List LoopFrame} {left : Nat} (h : steps[cu]? = some .next)
    (hr : frame.remaining = some left) (hl : 1 < left) : walk steps (bound + 1) cu (frame :: outer) =
      walk steps bound frame.bodyStart ({ frame with remaining := some (left - 1) } :: outer) := by
  simp only [walk, h, hr, if_pos hl]

theorem walk_next_pops {frame : LoopFrame} {outer : List LoopFrame} {left : Nat} (h : steps[cu]? = some .next)
    (hr : frame.remaining = some left) (hl : left ≤ 1) :
    walk steps (bound + 1) cu (frame :: outer) = walk steps bound (cu + 1) outer := by
  simp only [walk, h, hr, if_neg (not_lt.mpr hl)]

/-- The walk stopped without a play to start. -/
def WalkStop.stands (stop : WalkStop) : Prop := stop = .hold ∨ stop = .atEnd

theorem WalkStop.play_or_stands (stop : WalkStop) : (∃ clip, stop = .play clip) ∨ stop.stands := by
  cases stop with
  | play clip => exact Or.inl ⟨clip, rfl⟩
  | hold => exact Or.inr (Or.inl rfl)
  | atEnd => exact Or.inr (Or.inr rfl)

end

section

variable {s : State} {k c cu step : Nat} {r q : Insertion} {ch : Channel} {p p' : Playback} {x : ServiceEntry}
  {st : List LoopFrame} {stop : WalkStop} {gC cur : Pos} {cause : BreakCause} {result : Result} {ended : Bool}

/-! ## The walk of a channel -/

theorem State.Plays.walkFrom_plays {clip : Nat} (h : s.Plays r c ch p) (hk : s.insertions.get k = some r)
    (hw : walk (s.reelSteps r.reel) 64 step p.stack = (cu, st, .play clip)) : s.walkFrom k step gC =
      s.setPlay r.channel (s.startClip clip gC { p with cursor := cu, stack := st }) := by
  unfold State.walkFrom walkBound
  simp only [hk, h.playOf, hw]

theorem State.Plays.walkFrom_stands (h : s.Plays r c ch p) (hk : s.insertions.get k = some r) (hs : stop.stands)
    (hw : walk (s.reelSteps r.reel) 64 step p.stack = (cu, st, stop)) : s.walkFrom k step gC =
      if r.endRule = .reel then
        (s.setPlay r.channel { p with cursor := cu, stack := st }).takeBreak k .endRule .complete
      else s.setPlay r.channel { p with cursor := cu, stack := st } := by
  unfold State.walkFrom walkBound
  rcases hs with rfl | rfl <;> simp only [hk, h.playOf, hw]

/-! ## A playback replaced before the exit -/

theorem State.Plays.broughtBack_setPlay {u : Playback} (h : s.Plays r c ch p) :
    (s.setPlay r.channel p').broughtBack k q c { ch with play := some p' } u x cause = s.broughtBack k q c ch u x cause := by
  rw [h.setPlay_eq]
  unfold State.broughtBack
  dsimp only
  rw [Table.put_put]
  rfl

theorem State.Plays.setPlay_setPlay {u : Playback} (h : s.Plays r c ch p) :
    (s.setPlay r.channel p').setPlay r.channel u = s.setPlay r.channel u := by
  rw [(h.setPlay p').setPlay_eq, h.setPlay_eq, h.setPlay_eq]
  dsimp only
  rw [Table.put_put]

/-- Under REEL a walk that stands takes the break, and with no play in progress the record is RETURNING. -/
theorem State.Plays.walkFrom_returns (h : s.Plays r c ch p) (hk : s.insertions.get k = some r)
    (hx : s.services.get r.service = some x) (hroom : s.control.notices.length < 64) (hl : r.state = .onLocal)
    (hb : r.brk = none) (hp : p.clip = none) (hs : stop.stands) (he : r.endRule = .reel)
    (hw : walk (s.reelSteps r.reel) 64 step p.stack = (cu, st, stop)) : s.walkFrom k step gC =
      s.broughtBack k (r.broken .endRule .complete) c ch { p with cursor := cu, stack := [] } x .endRule := by
  rw [h.walkFrom_stands hk hs hw, if_pos he, (h.setPlay { p with cursor := cu, stack := st }).takeBreak_returns hx hk hl hb
    hroom (State.exitComplete_idle hp), h.broughtBack_setPlay]

/-! ## The parts of a slot boundary (R155) -/

theorem State.reachedNow_iff (hc : s.currentPos = some cur) {q : Option Pos} :
    s.reachedNow q = true ↔ ∃ g, q = some g ∧ 0 ≤ Pos.diff s.n cur g := by
  cases q with
  | none => exact ⟨fun h => (nomatch h), fun ⟨g, h, _⟩ => (nomatch h)⟩
  | some g =>
    rw [State.reachedNow_cur hc]
    exact ⟨fun h => ⟨g, rfl, h⟩, fun ⟨g', h, hd⟩ => Option.some.inj h ▸ hd⟩

theorem State.endPlay_over (hc : p.clip ≠ none) (he : s.reachedNow p.clipEnd = true) :
    s.endPlay r p = (s.setPlay r.channel { p with clip := none }, true) :=
  if_pos (by rw [he, Bool.and_true]; exact Option.isSome_iff_ne_none.mpr hc)

theorem State.endPlay_on (h : ¬(p.clip ≠ none ∧ s.reachedNow p.clipEnd = true)) : s.endPlay r p = (s, false) :=
  if_neg fun hand => h ⟨Option.isSome_iff_ne_none.mp (Bool.and_eq_true _ _ ▸ hand).1, (Bool.and_eq_true _ _ ▸ hand).2⟩

theorem State.reachBreak_not (h : s.reachedNow r.breakSlot ≠ true) : s.reachBreak k r = s := if_neg h

theorem State.reachBreak_now (h : s.reachedNow r.breakSlot = true) :
    s.reachBreak k r = s.takeBreak k .endRule .complete := if_pos h

theorem State.reachBreak_taken (hk : s.insertions.get k = some r) (hb : r.brk ≠ none) : s.reachBreak k r = s := by
  unfold State.reachBreak
  split
  · exact State.takeBreak_not_local _ _ hk (Or.inr hb)
  · rfl

theorem State.moveOn_returning (hk : s.insertions.get k = some r) (hs : r.state ≠ .onLocal) : s.moveOn k ended = s := by
  unfold State.moveOn
  cases hc : s.currentPos with
  | none => simp only [hk]
  | some cur => simp only [hk, decide_eq_false hs]

theorem State.Plays.moveOn_broken (h : s.Plays r c ch p) (hk : s.insertions.get k = some r) (hc : s.currentPos = some cur)
    (hl : r.state = .onLocal) (hb : r.brk = some (cause, result)) :
    s.moveOn k ended = if p.clip.isNone then s.toReturning k r p cause else s := by
  unfold State.moveOn
  simp only [hk, hc, hl, h.playOf, hb, decide_true]

theorem State.Plays.moveOn_unbroken (h : s.Plays r c ch p) (hk : s.insertions.get k = some r) (hc : s.currentPos = some cur)
    (hl : r.state = .onLocal) (hb : r.brk = none) :
    s.moveOn k ended = if ended then s.walkFrom k (p.cursor + 1) cur else s := by
  unfold State.moveOn
  simp only [hk, hc, hl, h.playOf, hb, decide_true]

/-! ## The break and the exit of a LOCAL record at a slot boundary -/

/-- Steps 2 and 3 of R155. -/
def State.breakOrMove (k : Nat) (r : Insertion) (ended : Bool) (s : State) : State := (s.reachBreak k r).moveOn k ended

theorem State.Plays.channelBoundary_eq (h : s.Plays r c ch p) :
    s.channelBoundary k r = (s.endPlay r p).1.breakOrMove k r (s.endPlay r p).2 := by
  unfold State.channelBoundary
  rw [h.playOf]
  rfl

theorem State.Plays.breakOrMove_still (h : s.Plays r c ch p) (hk : s.insertions.get k = some r)
    (hc : s.currentPos = some cur) (hl : r.state = .onLocal)
    (hs : (r.brk = none ∧ s.reachedNow r.breakSlot ≠ true) ∨ (r.brk ≠ none ∧ p.clip ≠ none)) :
    s.breakOrMove k r false = s := by
  unfold State.breakOrMove
  rcases hs with ⟨hb, hn⟩ | ⟨hb, hp⟩
  · rw [State.reachBreak_not hn, h.moveOn_unbroken hk hc hl hb]
    rfl
  · obtain ⟨⟨cause, result⟩, hb'⟩ := Option.ne_none_iff_exists'.mp hb
    rw [State.reachBreak_taken hk hb, h.moveOn_broken hk hc hl hb', if_neg (by simpa using hp)]

theorem State.Plays.breakOrMove_returns (h : s.Plays r c ch p) (hk : s.insertions.get k = some r)
    (hx : s.services.get r.service = some x) (hroom : s.control.notices.length < 64) (hl : r.state = .onLocal)
    (hb : r.brk = none) (hn : s.reachedNow r.breakSlot = true) (he : s.exitComplete p = true) :
    s.breakOrMove k r ended = s.broughtBack k (r.broken .endRule .complete) c ch { p with stack := [] } x .endRule := by
  unfold State.breakOrMove
  rw [State.reachBreak_now hn, h.takeBreak_returns hx hk hl hb hroom he]
  exact State.moveOn_returning (r := { r.broken .endRule .complete with state := .returning }) (Table.get_put_same _ _ _)
    (fun h => nomatch h)

theorem State.Plays.breakOrMove_pends (h : s.Plays r c ch p) (hk : s.insertions.get k = some r)
    (hc : s.currentPos = some cur) (hl : r.state = .onLocal) (hb : r.brk = none) (hn : s.reachedNow r.breakSlot = true)
    (hp : p.clip ≠ none) (he : s.exitComplete p = false) : s.breakOrMove k r ended = { s with
      insertions := s.insertions.put k (r.broken .endRule .complete)
      channels := s.channels.put c { ch with play := some { p with stack := [], exitPending := true } } } := by
  have hplays : ({ s with
      insertions := s.insertions.put k (r.broken .endRule .complete)
      channels := s.channels.put c { ch with play := some { p with stack := [], exitPending := true } } } : State).Plays
      (r.broken .endRule .complete) c { ch with play := some { p with stack := [], exitPending := true } }
      { p with stack := [], exitPending := true } := ⟨h.channel, Table.get_put_same _ _ _, rfl⟩
  unfold State.breakOrMove
  rw [State.reachBreak_now hn, h.takeBreak_pends hk hl hb he,
    hplays.moveOn_broken (Table.get_put_same _ _ _) hc hl rfl, if_neg (by simpa using hp)]

theorem State.Plays.breakOrMove_exits (h : s.Plays r c ch p) (hk : s.insertions.get k = some r)
    (hx : s.services.get r.service = some x) (hroom : s.control.notices.length < 64) (hc : s.currentPos = some cur)
    (hl : r.state = .onLocal) (hb : r.brk = some (cause, result)) (hp : p.clip = none) :
    s.breakOrMove k r ended = s.broughtBack k r c ch p x cause := by
  unfold State.breakOrMove
  rw [State.reachBreak_taken hk (by rw [hb]; exact Option.some_ne_none _), h.moveOn_broken hk hc hl hb,
    if_pos (by rw [hp]; rfl), h.toReturning_eq hx p cause hroom]

theorem State.Plays.breakOrMove_walks (h : s.Plays r c ch p) (hk : s.insertions.get k = some r)
    (hc : s.currentPos = some cur) (hl : r.state = .onLocal) (hb : r.brk = none) (hn : s.reachedNow r.breakSlot ≠ true) :
    s.breakOrMove k r true = s.walkFrom k (p.cursor + 1) cur := by
  unfold State.breakOrMove
  rw [State.reachBreak_not hn, h.moveOn_unbroken hk hc hl hb]
  rfl

/-! ## A record at a slot boundary (R152, R155) -/

theorem State.recordBoundary_local (hk : s.insertions.get k = some r) (hl : r.state = .onLocal) :
    s.recordBoundary k = s.channelBoundary k r := by
  unfold State.recordBoundary
  simp only [hk, hl]

theorem State.recordBoundary_primed {gS : Pos} (hk : s.insertions.get k = some r) (hs : r.state = .primed)
    (hg : r.splice = some gS) :
    s.recordBoundary k = if s.reachedNow (some gS) then s.spliceStart k r gS else s := by
  unfold State.recordBoundary
  simp only [hk, hs, hg]

/-- The play of a LOCAL record goes on, or is over where its clip end is reached. -/
theorem State.Plays.recordBoundary_on (h : s.Plays r c ch p) (hk : s.insertions.get k = some r) (hl : r.state = .onLocal)
    (he : ¬(p.clip ≠ none ∧ s.reachedNow p.clipEnd = true)) : s.recordBoundary k = s.breakOrMove k r false := by
  rw [State.recordBoundary_local hk hl, h.channelBoundary_eq, State.endPlay_on he]

theorem State.Plays.recordBoundary_over (h : s.Plays r c ch p) (hk : s.insertions.get k = some r) (hl : r.state = .onLocal)
    (hp : p.clip ≠ none) (he : s.reachedNow p.clipEnd = true) :
    s.recordBoundary k = (s.setPlay r.channel { p with clip := none }).breakOrMove k r true := by
  rw [State.recordBoundary_local hk hl, h.channelBoundary_eq, State.endPlay_over hp he]

end

end Sys2Proof.Machine

/-! SUPPORT. The splice start of a PRIMED record, and a record at a slot boundary settled (R152 to R155). -/

namespace Sys2Proof.Machine

section

variable {s : State} {k c : Nat} {r : Insertion} {ch : Channel} {x : ServiceEntry} {a : Anchor} {gS cur : Pos}

/-! ## The anchor (R152, R167) -/

theorem State.usableAnchor_none (hx : s.services.get r.service = some x)
    (h : ∀ a, x.anchor = some a → 20000000 < s.slotDiff s.currentNumber a.slot * s.site.period) :
    s.usableAnchor r.service = none := by
  unfold State.usableAnchor
  rw [hx, Option.bind_some]
  split
  · next a ha => exact if_neg (not_le.mpr (h a ha))
  · rfl

theorem State.usableAnchor_some (hx : s.services.get r.service = some x) (ha : x.anchor = some a)
    (h : s.slotDiff s.currentNumber a.slot * s.site.period ≤ 20000000) : s.usableAnchor r.service = some a := by
  unfold State.usableAnchor
  rw [hx, Option.bind_some, ha]
  exact if_pos h

/-! ## The splice (R152) -/

/-- A record spliced, before its channel walks. -/
def State.splicedAt (k : Nat) (r : Insertion) (c : Nat) (ch : Channel) (x : ServiceEntry) (clock : Clock) (cur : Pos)
    (s : State) : State :=
  { s with
    insertions := s.insertions.put k { r with state := .onLocal, startSlot := some cur }
    channels := s.channels.put c { ch with play := some (.begun clock) }
    services := s.services.put r.service { x with splice := .onLocal, active := some k }
    control := { s.control with
      notices := s.noticesWith (.insert k r.service .primed .onLocal .splice r.matched s.currentNumber) } }

theorem State.insertNotice_room {q : Insertion} {old : RecordState} {cause : InsertCause}
    (hr : s.control.notices.length < 64) : s.insertNotice k old q cause = { s with control := { s.control with
      notices := s.noticesWith (.insert k q.service old q.state cause q.matched s.currentNumber) } } :=
  State.raise_room _ hr

theorem State.spliceStart_aborts (h : s.usableAnchor r.service = none) :
    s.spliceStart k r gS = s.finish k r .abortedNoClock := by
  unfold State.spliceStart
  rw [h]

theorem State.spliceStart_splices (hs : r.state = .primed) (hu : s.usableAnchor r.service = some a)
    (hcur : s.currentPos = some cur) (hc : r.channel = some c) (hch : s.channels.get c = some ch)
    (hx : s.services.get r.service = some x) (hr : s.control.notices.length < 64) : s.spliceStart k r gS =
      (s.splicedAt k r c ch x (s.predictedClock a (gS.number s.n)) cur).walkFrom k 0 gS := by
  have hplay : s.channels.update c (fun y => { y with play := some (.begun (s.predictedClock a (gS.number s.n))) }) =
      s.channels.put c { ch with play := some (.begun (s.predictedClock a (gS.number s.n))) } := Table.update_of_get _ hch
  have hservice : s.services.update r.service (fun e => { e with splice := .onLocal, active := some k }) =
      s.services.put r.service { x with splice := .onLocal, active := some k } := Table.update_of_get _ hx
  unfold State.spliceStart
  rw [hu]
  dsimp only
  refine congrArg (fun t => State.walkFrom k 0 gS t) ?_
  refine (State.insertNotice_room (by exact hr)).trans ?_
  unfold State.splicedAt
  rw [← hplay, ← hservice, ← hcur, hs, hc]
  rfl

theorem State.splicedAt_plays (hc : r.channel = some c) (clock : Clock) :
    (s.splicedAt k r c ch x clock cur).Plays { r with state := .onLocal, startSlot := some cur } c
      { ch with play := some (.begun clock) } (.begun clock) := ⟨hc, Table.get_put_same _ _ _, rfl⟩

theorem State.startClip_eq {clip : Nat} {e : ClipEntry} {p : Playback} (he : s.clips.get clip = some e) :
    s.startClip clip gS p = { p with
      clip := some clip, nextCell := 0, clipStart := some gS, clipEnd := none
      clock := (match p.clipStart with
        | some old => s.clockAfter p.clock (Pos.diff s.n gS old)
        | none => p.clock)
      offset := some ((match p.clipStart with
        | some old => s.clockAfter p.clock (Pos.diff s.n gS old)
        | none => p.clock) - e.clock)
      lagNoticed := false, started := [] } := by
  unfold State.startClip
  rw [he] <;> rfl

theorem State.setPlay_insertions_get {p : Playback} {n : Option Nat} {q : Insertion} (h : s.insertions.get k = some q) :
    (s.setPlay n p).insertions.get k = some q := h

/-- What the walk of a spliced record's channel leaves where a play starts, or where it stands without a break. -/
def State.splicedPlaying (k : Nat) (r : Insertion) (c : Nat) (ch : Channel) (x : ServiceEntry) (clock : Clock) (cur : Pos)
    (p : Playback) (s : State) : State :=
  { s.splicedAt k r c ch x clock cur with channels := s.channels.put c { ch with play := some p } }

theorem State.setPlay_splicedAt (hc : r.channel = some c) (clock : Clock) (p : Playback) :
    (s.splicedAt k r c ch x clock cur).setPlay r.channel p = s.splicedPlaying k r c ch x clock cur p := by
  refine ((State.splicedAt_plays hc clock).setPlay_eq p).trans ?_
  unfold State.splicedPlaying State.splicedAt
  dsimp only
  rw [Table.put_put]

/-- A spliced record whose break the walk has taken at once. -/
theorem State.broughtBack_splicedAt {clock : Clock} {q : Insertion} {p : Playback} {cause : BreakCause}
    (hq : q.service = r.service) : (s.splicedAt k r c ch x clock cur).broughtBack k q c { ch with play := some (.begun clock) } p
      { x with splice := .onLocal, active := some k } cause = { s with
        insertions := s.insertions.put k { q with state := .returning }
        channels := s.channels.put c { ch with play := some { p with clip := none, exitPending := false } }
        services := s.services.put r.service { x with splice := .returning, active := some k }
        control := { s.control with
          notices := s.noticesWith (.insert k r.service .primed .onLocal .splice r.matched s.currentNumber) ++
            [s.time.noticeOf (.insert k r.service q.state .returning (.brk cause) q.matched s.currentNumber)] } } := by
  unfold State.broughtBack State.splicedAt
  dsimp only
  rw [hq, Table.put_put, Table.put_put, Table.put_put]
  rfl

end

/-! ## Settled -/

/-- Settles O45: the walk by its steps; the record by its state, and a LOCAL one by what its play, its break slot and its
break are. -/
theorem recordAtSlotBoundary : Obligations.RecordAtSlotBoundary := by
  unfold Obligations.RecordAtSlotBoundary
  refine ⟨fun steps bound cu st => ⟨walk_atEnd, fun clip => walk_play, walk_hold, fun n => walk_loop,
    fun frame outer h hst => ?_⟩, fun k r c ch x cur s hk hcur hc hch hx hroom => ⟨fun gS hs hg hd => ?_,
      fun gS hs hg hd ha => ?_, fun gS a cu st stop hs hg hd ha hage hw => ?_, fun p hl hp => ?_⟩⟩
  · subst hst
    exact ⟨walk_next_endless h, fun left => walk_next_turns h, fun left => walk_next_pops h⟩
  · rw [State.recordBoundary_primed hk hs hg, if_neg (fun h => not_le.mpr hd ((State.reachedNow_cur hcur).mp h))]
  · have hends : s.recordBoundary k = s.finish k r .abortedNoClock := by
      rw [State.recordBoundary_primed hk hs hg, if_pos ((State.reachedNow_cur hcur).mpr hd),
        State.spliceStart_aborts (State.usableAnchor_none hx ha)]
    have hh : r.holds = true := r.holds_of_primed hs
    have hr : s.control.notices.length < 64 := by omega
    have hrel : s.releases r.reel (s.finish k r .abortedNoClock) := State.finish_releases hr
    refine ⟨_, hends, ?_⟩
    rw [State.finish_room hr] at hrel ⊢
    refine ⟨State.enterDone_channels_of_holds (s := s) (k := k) hh hc .abortedNoClock, ?_,
      State.enterDone_services_of_holds (s := s) (k := k) hh hx .abortedNoClock, ?_, hrel⟩
    · rw [State.enterDone_frame, hcur]
      rfl
    · rw [← hs]
      rfl
  · have hr : s.control.notices.length < 64 := by omega
    have hstart : s.recordBoundary k =
        (s.splicedAt k r c ch x (s.predictedClock a (gS.number s.n)) cur).walkFrom k 0 gS := by
      rw [State.recordBoundary_primed hk hs hg, if_pos ((State.reachedNow_cur hcur).mpr hd),
        State.spliceStart_splices hs (State.usableAnchor_some hx ha hage) hcur hc hch hx hr]
    set clock : Clock := s.predictedClock a (gS.number s.n) with hclock
    have hplays := State.splicedAt_plays (s := s) (k := k) (x := x) (cur := cur) (ch := ch) hc clock
    have hget : (s.splicedAt k r c ch x clock cur).insertions.get k = some { r with state := .onLocal, startSlot := some cur } :=
      Table.get_put_same _ _ _
    rcases stop.play_or_stands with ⟨clip, rfl⟩ | hstands
    · have ht : s.recordBoundary k = s.splicedPlaying k r c ch x clock cur _ :=
        hstart.trans ((hplays.walkFrom_plays hget hw).trans (State.setPlay_splicedAt hc clock _))
      refine ⟨_, _, ht, rfl, rfl, rfl, rfl, rfl, rfl, rfl, rfl, rfl, fun clip' e hclip he => ?_,
        fun h => (by rcases h with h | h <;> exact nomatch h), fun _ => ⟨rfl, rfl, rfl⟩,
        fun h => (by rcases h with h | h <;> exact nomatch h)⟩
      obtain rfl : clip = clip' := WalkStop.play.inj hclip
      rw [State.startClip_eq (by exact he)]
      exact ⟨rfl, rfl, rfl, rfl, rfl, rfl, rfl⟩
    · have hno : ¬∃ clip, stop = .play clip := fun ⟨clip, h⟩ => by
        rcases hstands with hh | hh <;> exact nomatch h.symm.trans hh
      have hwalk := hplays.walkFrom_stands (gC := gS) hget hstands hw
      by_cases hbreak : r.endRule = .reel ∧ r.brk = none
      · obtain ⟨he, hb⟩ := hbreak
        have ht := hstart.trans ((hplays.walkFrom_returns (gC := gS) (x := { x with splice := .onLocal, active := some k })
          hget (Table.get_put_same _ _ _) (by simp [State.splicedAt, State.noticesWith]; omega) rfl hb rfl hstands
          he hw).trans (State.broughtBack_splicedAt rfl))
        exact ⟨_, _, ht, rfl, rfl, rfl, rfl, rfl, rfl, rfl, rfl, rfl, fun clip _ h => absurd ⟨clip, h⟩ hno,
          fun _ => ⟨rfl, fun hne => absurd he hne⟩, fun h => absurd he (h.resolve_left hno),
          fun _ _ _ => ⟨rfl, rfl, rfl, rfl⟩⟩
      · have ht : s.recordBoundary k = s.splicedPlaying k r c ch x clock cur
            { Playback.begun clock with cursor := cu, stack := st } := by
          refine (hstart.trans hwalk).trans (Eq.trans ?_ (State.setPlay_splicedAt hc clock _))
          by_cases he : r.endRule = .reel
          · exact (if_pos he).trans (State.takeBreak_not_local _ _ (State.setPlay_insertions_get hget)
              (Or.inr fun hb => hbreak ⟨he, hb⟩))
          · exact if_neg he
        exact ⟨_, _, ht, rfl, rfl, rfl, rfl, rfl, rfl, rfl, rfl, rfl, fun clip _ h => absurd ⟨clip, h⟩ hno,
          fun _ => ⟨rfl, fun _ => rfl⟩, fun _ => ⟨rfl, rfl, rfl⟩, fun _ he hb => absurd ⟨he, hb⟩ hbreak⟩
  · have hplays : s.Plays r c ch p := ⟨hc, hch, hp⟩
    have hr : s.control.notices.length < 64 := by omega
    have hreach : ∀ q, (∃ g, q = some g ∧ 0 ≤ Pos.diff s.n cur g) ↔ s.reachedNow q = true :=
      fun q => (State.reachedNow_iff hcur).symm
    have hidle (h : ¬(p.clip ≠ none ∧ s.reachedNow p.clipEnd = true)) : p.clip = none ∨ s.reachedNow p.clipEnd = true →
        p.clip = none := fun hi => by
      by_contra hne
      exact h ⟨hne, hi.resolve_left hne⟩
    have hover := hplays.setPlay { p with clip := none }
    simp only [hreach]
    refine ⟨fun hno hstill => ?_, fun hb hn hi => ?_, fun hb hn hno hgoes => ?_, fun cause result hb hi => ?_,
      fun cu st stop hb hn hend hw => ?_⟩
    · rw [hplays.recordBoundary_on hk hl hno, hplays.breakOrMove_still hk hcur hl hstill]
    · by_cases hov : p.clip ≠ none ∧ s.reachedNow p.clipEnd = true
      · rw [hplays.recordBoundary_over hk hl hov.1 hov.2, hover.breakOrMove_returns hk hx hr hl hb hn
          (State.exitComplete_idle rfl), hplays.broughtBack_setPlay, State.broughtBack_local (by exact hl)]
        rfl
      · rw [hplays.recordBoundary_on hk hl hov, hplays.breakOrMove_returns hk hx hr hl hb hn
          (State.exitComplete_of_exit (hi.imp_left (hidle hov))), State.broughtBack_local (by exact hl)]
        rfl
    · rw [hplays.recordBoundary_on hk hl hno]
      obtain ⟨cl, e, hcl, _⟩ := id hgoes
      exact hplays.breakOrMove_pends hk hcur hl hb hn (by rw [hcl]; exact Option.some_ne_none _)
        (State.exitComplete_of_goesOn hgoes)
    · by_cases hov : p.clip ≠ none ∧ s.reachedNow p.clipEnd = true
      · rw [hplays.recordBoundary_over hk hl hov.1 hov.2, hover.breakOrMove_exits hk hx hr hcur hl hb rfl,
          hplays.broughtBack_setPlay, State.broughtBack_local hl]
      · rw [hplays.recordBoundary_on hk hl hov, hplays.breakOrMove_exits hk hx hr hcur hl hb (hidle hov hi),
          State.broughtBack_local hl]
    · have hwalks : s.recordBoundary k = (s.setPlay r.channel { p with clip := none }).walkFrom k (p.cursor + 1) cur := by
        rw [hplays.recordBoundary_over hk hl hend.1 hend.2, hover.breakOrMove_walks hk hcur hl hb hn]
      refine ⟨fun clip e old hstop he hold => ?_, fun hstands hne => ?_, fun hstands he => ?_⟩
      · subst hstop
        rw [hwalks, hover.walkFrom_plays hk hw, State.startClip_eq (by exact he), hplays.setPlay_setPlay,
          hplays.setPlay_eq]
        simp only [hold]
        rfl
      · rw [hwalks, hover.walkFrom_stands hk hstands hw, if_neg hne, hplays.setPlay_setPlay, hplays.setPlay_eq]
      · rw [hwalks, hover.walkFrom_returns hk hx hr hl hb rfl hstands he hw, hplays.broughtBack_setPlay,
          State.broughtBack_local (by exact hl)]
        rfl

end Sys2Proof.Machine

/-! SUPPORT. The due cell of a channel, and what giving it leaves (R156, R157, R159). -/

namespace Sys2Proof.Machine

section

variable {s : State} {c clip : Nat} {ch : Channel} {r : Insertion} {p : Playback} {e : ClipEntry} {gC cur : Pos} {off : Clock}
  {x : ServiceEntry} {cause : BreakCause} {result : Result}

/-! ## The due cell (R156) -/

/-- The next cell of a play, with its due position and its lag. -/
def State.nextOf (c : Nat) (ch : Channel) (r : Insertion) (p : Playback) (clip : Nat) (e : ClipEntry) (gC cur : Pos)
    (off : Clock) (s : State) : DueCell :=
  { record := ch.record, insertion := r, channel := c, play := p, clip := clip, entry := e
    cell := s.clipRecord (e.base + p.nextCell), due := gC.add s.n (s.clipRecord (e.base + p.nextCell)).due, now := cur
    lag := Pos.diff s.n cur (gC.add s.n (s.clipRecord (e.base + p.nextCell)).due), offset := off }

theorem State.dueCell_eq (hch : s.channels.get c = some ch) (hp : ch.play = some p)
    (hr : s.insertions.get ch.record = some r) (hl : r.state = .onLocal) (hclip : p.clip = some clip)
    (he : s.clips.get clip = some e) (hgC : p.clipStart = some gC) (ho : p.offset = some off) (hcur : s.currentPos = some cur)
    (hlt : p.nextCell < e.written) : s.dueCell c =
      if 0 ≤ (s.nextOf c ch r p clip e gC cur off).lag ∧
          (p.exitPending && (s.nextOf c ch r p clip e gC cur off).cell.start) = false then
        some (s.nextOf c ch r p clip e gC cur off)
      else none := by
  have hnext : s.nextCellOf c ch.record r p = some (s.nextOf c ch r p clip e gC cur off) := by
    unfold State.nextCellOf
    simp only [State.clipInPlay_some hclip he, hgC, hcur, ho]
    exact if_pos hlt
  unfold State.dueCell
  simp only [hch, hr, hp, if_pos hl, hnext]

/-! ## The lag (R157) -/

variable {d : DueCell}

theorem State.lagRaises_iff : s.lagRaises d = true ↔ (s.n : Int) < d.lag ∧ d.play.lagNoticed = false := by
  unfold State.lagRaises
  rw [Bool.and_eq_true, decide_eq_true_iff, Bool.not_eq_true']

/-- The INSERT_LAG notice that giving a cell raises, if it raises one. -/
def State.lagNotices (d : DueCell) (s : State) : List Notice :=
  if s.lagRaises d then
    [s.time.noticeOf (.insertLag d.record d.channel d.clip d.play.nextCell (d.due.number s.n) (heldLag d.lag))]
  else []

theorem State.lagNotices_none (h : d.lag ≤ s.n ∨ d.play.lagNoticed = true) :
    s.lagNotices d = [] ∧ (s.playAfter d).lagNoticed = d.play.lagNoticed := by
  have hr : s.lagRaises d = false := by
    refine Bool.eq_false_iff.mpr fun hr => ?_
    obtain ⟨hlt, hn⟩ := State.lagRaises_iff.mp hr
    rcases h with h | h
    · omega
    · exact Bool.false_ne_true (hn.symm.trans h)
  exact ⟨if_neg (by rw [hr]; exact Bool.false_ne_true), by
    show (d.play.lagNoticed || s.lagRaises d) = _
    rw [hr, Bool.or_false]⟩

theorem State.lagNotices_some (hlt : (s.n : Int) < d.lag) (hn : d.play.lagNoticed = false) :
    (s.playAfter d).lagNoticed = true ∧ s.lagNotices d = [s.time.noticeOf (.insertLag d.record d.channel d.clip
      d.play.nextCell (d.due.number s.n) (min d.lag.toNat 16777215))] := by
  have hr : s.lagRaises d = true := State.lagRaises_iff.mpr ⟨hlt, hn⟩
  refine ⟨?_, if_pos hr⟩
  show (d.play.lagNoticed || s.lagRaises d) = true
  rw [hr, Bool.or_true]

theorem State.lagNotices_length (d : DueCell) (s : State) : (s.lagNotices d).length ≤ 1 := by
  unfold State.lagNotices
  split
  · exact le_refl 1
  · exact Nat.zero_le 1

/-! ## The playback once the cell is given (R154, R157) -/

theorem State.playAfter_started (k : Nat) :
    k ∈ (s.playAfter d).started ↔ k ∈ d.play.started ∨ k = d.cell.component := by
  show k ∈ (if d.cell.component ∈ d.play.started then d.play.started else d.play.started ++ [d.cell.component]) ↔ _
  split
  · next h => exact ⟨Or.inl, fun hk => hk.elim id (fun hk => hk ▸ h)⟩
  · rw [List.mem_append, List.mem_singleton]

theorem State.playAfter_clipEnd_on (h : d.play.nextCell + 1 ≠ d.entry.written) :
    (s.playAfter d).clipEnd = d.play.clipEnd := if_neg h

theorem State.playAfter_clipEnd_last (h : d.play.nextCell + 1 = d.entry.written) (hg : d.play.clipStart = some gC) :
    (s.playAfter d).clipEnd = some (if 0 ≤ Pos.diff s.n (gC.add s.n d.entry.duration) (d.now.add s.n 1) then
      gC.add s.n d.entry.duration else d.now.add s.n 1) := by
  refine (if_pos h).trans ?_
  rw [hg]
  rfl

/-! ## The cell given -/

/-- The state once the cell is given and its notice raised, before the exit is examined. -/
def State.cellGiven (d : DueCell) (ch : Channel) (x : ServiceEntry) (s : State) : State :=
  { s with
    insertions := s.insertions.put d.record { d.insertion with localCells := bump d.insertion.localCells }
    channels := s.channels.put d.channel { ch with play := some (s.playAfter d) }
    services := s.services.put d.insertion.service { x with localCells := bump x.localCells }
    control := { s.control with notices := s.control.notices ++ s.lagNotices d } }

theorem State.giveCell_eq (hch : s.channels.get d.channel = some ch) (hx : s.services.get d.insertion.service = some x)
    (hroom : s.control.notices.length < 64) : s.giveCell d = (s.cellGiven d ch x).examineExit d
      { d.insertion with localCells := bump d.insertion.localCells } (s.playAfter d) := by
  have hplay : s.channels.update d.channel (fun y => { y with play := some (s.playAfter d) }) =
      s.channels.put d.channel { ch with play := some (s.playAfter d) } := Table.update_of_get _ hch
  have hservice : s.services.update d.insertion.service (fun y => { y with localCells := bump y.localCells }) =
      s.services.put d.insertion.service { x with localCells := bump x.localCells } := Table.update_of_get _ hx
  unfold State.giveCell
  dsimp only
  refine congrArg (fun t => State.examineExit d { d.insertion with localCells := bump d.insertion.localCells }
    (s.playAfter d) t) ?_
  unfold State.cellGiven State.lagNotices
  rw [← hplay, ← hservice]
  split
  · exact State.raise_room _ (by exact hroom)
  · rw [List.append_nil]
    rfl

/-- The exit that the given cell ends (R159), in one change of the state. -/
theorem State.broughtBack_cellGiven (hl : d.insertion.state = .onLocal) : (s.cellGiven d ch x).broughtBack d.record
    { d.insertion with localCells := bump d.insertion.localCells } d.channel { ch with play := some (s.playAfter d) } p
    { x with localCells := bump x.localCells } cause = { s with
      insertions := s.insertions.put d.record { d.insertion with
        localCells := bump d.insertion.localCells, state := .returning }
      channels := s.channels.put d.channel { ch with play := some { p with clip := none, exitPending := false } }
      services := s.services.put d.insertion.service { x with
        localCells := bump x.localCells, splice := .returning, active := some d.record }
      control := { s.control with
        notices := s.control.notices ++ s.lagNotices d ++ [s.time.noticeOf (.insert d.record d.insertion.service .onLocal
          .returning (.brk cause) d.insertion.matched s.currentNumber)] } } := by
  rw [State.broughtBack_local (by exact hl)]
  unfold State.cellGiven
  dsimp only
  rw [Table.put_put, Table.put_put, Table.put_put]
  rfl

theorem State.examineExit_goes (h : p.exitPending = false ∨ s.exitComplete p = false) : s.examineExit d r p = s := by
  have hno : (p.exitPending && s.exitComplete p) = false := by
    rcases h with h | h <;> simp [h]
  unfold State.examineExit
  rw [hno]

theorem State.examineExit_ends (hp : p.exitPending = true) (he : s.exitComplete p = true)
    (hb : r.brk = some (cause, result)) : s.examineExit d r p = s.toReturning d.record r p cause := by
  unfold State.examineExit
  rw [hp, he, hb]
  rfl

end

/-! ## Settled -/

/-- Settles O46: the due cell by the channel's play, and what giving it leaves by the exit that its playback stands at. -/
theorem dueCells : Obligations.DueCells := by
  unfold Obligations.DueCells
  intro c ch r p clip e gC off cur x s hch hp hr hl hclip he hgC ho hcur hlt hx hroom
  have hdue := State.dueCell_eq hch hp hr hl hclip he hgC ho hcur hlt
  let d := s.nextOf c ch r p clip e gC cur off
  refine ⟨fun hlag => hdue.trans (if_neg fun h => not_le.mpr hlag h.1), fun hpend hstart => hdue.trans (if_neg fun h => ?_),
    fun hlag hgo => ?_⟩
  · have hboth : (p.exitPending && (s.clipRecord (e.base + p.nextCell)).start) = false := h.2
    rw [hpend, hstart] at hboth
    exact nomatch hboth
  · have hgive : s.giveCell d = _ := State.giveCell_eq (d := d) hch hx hroom
    have hcomplete : (s.cellGiven d ch x).exitComplete (s.playAfter d) = (decide (e.written ≤ p.nextCell + 1) ||
        (s.clipRecord (e.base + (p.nextCell + 1))).start) :=
      State.exitComplete_playing (s := s.cellGiven d ch x) (p := s.playAfter d) hclip he
    have hstart : (p.exitPending && (s.clipRecord (e.base + p.nextCell)).start) = false := by
      rcases hgo with h | h <;> simp [h]
    refine ⟨d, s.lagNotices d, s.playAfter d, hdue.trans (if_pos ⟨hlag, hstart⟩), rfl, rfl, rfl, rfl, rfl, rfl,
      fun h => State.lagNotices_none (d := d) h, fun h1 h2 => State.lagNotices_some (d := d) h1 h2, rfl, rfl, rfl, rfl, rfl,
      rfl, rfl, rfl, rfl, fun k => State.playAfter_started (d := d) k, fun h => State.playAfter_clipEnd_on (d := d) h.ne,
      fun h => State.playAfter_clipEnd_last (d := d) h hgC, fun hgoes => ?_, fun cause result hpend hends hb hc hr2 => ?_⟩
    · refine hgive.trans (State.examineExit_goes ?_)
      refine hgoes.imp_right fun hne => ?_
      rw [hcomplete, Bool.or_eq_false_iff]
      obtain ⟨hwritten, hstart⟩ := not_or.mp hne
      exact ⟨decide_eq_false (by omega), Bool.eq_false_iff.mpr hstart⟩
    · have hdone : (s.cellGiven d ch x).exitComplete (s.playAfter d) = true := by
        rw [hcomplete, Bool.or_eq_true, decide_eq_true_iff]
        exact hends.imp_left fun h => h.ge
      have hplays : (s.cellGiven d ch x).Plays { r with localCells := bump r.localCells } c
          { ch with play := some (s.playAfter d) } (s.playAfter d) := ⟨hc, Table.get_put_same _ _ _, rfl⟩
      refine hgive.trans ((State.examineExit_ends (r := { r with localCells := bump r.localCells }) (p := s.playAfter d)
        hpend hdone hb).trans ?_)
      refine (hplays.toReturning_eq (x := { x with localCells := bump x.localCells }) (Table.get_put_same _ _ _) _ cause
        ?_).trans ?_
      · rw [show (s.cellGiven d ch x).control.notices = s.control.notices ++ s.lagNotices d from rfl, List.length_append]
        exact hr2
      · exact State.broughtBack_cellGiven (d := d) hl

end Sys2Proof.Machine

/-! SUPPORT. The cell a channel gives, read back (R172 to R176, R202). -/

namespace Sys2Proof.Machine

section

variable {bs new payload : Bytes} {start n label continuity : Nat} {clock isStart stamped disc : Bool} {v : Clock}

/-! ## A run of bytes with some of it overwritten -/

theorem overwrite_drop_start (h : start ≤ bs.length) :
    (overwrite bs start new).drop start = new ++ bs.drop (start + new.length) := by
  have hlen : (bs.take start).length = start := by rw [List.length_take]; omega
  have hdrop := List.drop_left (l₁ := bs.take start) (l₂ := new ++ bs.drop (start + new.length))
  rw [hlen] at hdrop
  rw [overwrite, List.append_assoc, hdrop]

theorem overwrite_drop_after (h : start ≤ bs.length) (hn : start + new.length ≤ n) :
    (overwrite bs start new).drop n = bs.drop n := by
  obtain ⟨m, rfl⟩ := Nat.exists_eq_add_of_le hn
  rw [Nat.add_assoc, ← List.drop_drop, overwrite_drop_start h, ← List.drop_drop, List.drop_left, List.drop_drop, Nat.add_assoc]

theorem overwrite_take_before (h : start ≤ bs.length) (hn : n ≤ start) : (overwrite bs start new).take n = bs.take n := by
  have hlen : n ≤ (bs.take start).length := by rw [List.length_take]; omega
  rw [overwrite, List.append_assoc, List.take_append_of_le_length hlen, List.take_take, min_eq_left hn]

theorem writeClock_drop (h : start ≤ payload.length) (hn : start + 5 ≤ n) :
    (writeClock payload start v).drop n = payload.drop n :=
  overwrite_drop_after h (by rw [beBytes_length]; exact hn)

theorem payloadClock_writeClock (h : start ≤ payload.length) : payloadClock (writeClock payload start v) start = v := by
  have hrun : ((beBytes 5 v.toNat) ++ payload.drop (start + (beBytes 5 v.toNat).length)).take 5 = beBytes 5 v.toNat := by
    have htake := List.take_left (l₁ := beBytes 5 v.toNat) (l₂ := payload.drop (start + (beBytes 5 v.toNat).length))
    rwa [beBytes_length] at htake
  unfold payloadClock writeClock fieldNat
  rw [overwrite_drop_start h, hrun, beNat_beBytes_of_lt v.isLt, BitVec.ofNat_toNat, BitVec.setWidth_eq]

/-- The clock field stands where a presentation stamp is written behind it. -/
theorem payloadClock_writeClock_behind (h : 5 ≤ payload.length) :
    payloadClock (writeClock payload 5 v) 0 = payloadClock payload 0 := by
  unfold payloadClock writeClock fieldNat
  rw [List.drop_zero, overwrite_take_before h (le_refl 5), List.drop_zero]

/-! ## The header of a formed cell (R202) -/

theorem formCell_flags : ∀ clock isStart stamped disc : Bool,
    let flags : Byte := flagBit clock 7 ||| flagBit isStart 6 ||| flagBit stamped 5 ||| flagBit disc 4
    flags.getLsbD 7 = clock ∧ flags.getLsbD 6 = isStart ∧ flags.getLsbD 5 = stamped ∧ flags.getLsbD 4 = disc ∧
      flags.toNat % 16 = 0 := by decide

theorem cellLabel_formCell (hl : label < 4096) (hc : continuity < 16) :
    cellLabel (formCell label continuity clock isStart stamped disc payload) = label := by
  show (BitVec.ofNat 8 (label / 16)).toNat * 16 + (BitVec.ofNat 8 (label % 16 * 16 + continuity)).toNat / 16 = label
  rw [BitVec.toNat_ofNat, BitVec.toNat_ofNat]
  omega

theorem cellContinuity_formCell (hc : continuity < 16) :
    cellContinuity (formCell label continuity clock isStart stamped disc payload) = continuity := by
  show (BitVec.ofNat 8 (label % 16 * 16 + continuity)).toNat % 16 = continuity
  rw [BitVec.toNat_ofNat]
  omega

theorem Component.nextContinuity_lt (y : Component) : y.nextContinuity < 16 := by
  unfold Component.nextContinuity
  split
  · exact Nat.mod_lt _ (by decide)
  · decide

end

/-! ## The payload moved (R175, R176) -/

section

variable {s : State} {d : DueCell}

/-- The clock field once moved by the offset and the lag. -/
def State.movedClock (d : DueCell) (s : State) : Clock :=
  s.clockAfter (payloadClock d.cell.payload 0 + d.offset) d.lag

theorem State.rebasedPayload_both (hc : d.cell.clock = true) (hs : d.cell.stamped = true) : s.rebasedPayload d =
    writeClock (writeClock d.cell.payload 0 (s.movedClock d)) 5 (payloadClock d.cell.payload 5 + d.offset) := by
  unfold State.rebasedPayload
  simp only [hc, hs, if_true]
  rfl

theorem State.rebasedPayload_clock (hc : d.cell.clock = true) (hs : d.cell.stamped = false) :
    s.rebasedPayload d = writeClock d.cell.payload 0 (s.movedClock d) := by
  unfold State.rebasedPayload
  simp only [hc, hs, if_true]
  rfl

theorem State.rebasedPayload_stamped (hc : d.cell.clock = false) (hs : d.cell.stamped = true) :
    s.rebasedPayload d = writeClock d.cell.payload 0 (payloadClock d.cell.payload 0 + d.offset) := by
  unfold State.rebasedPayload
  simp only [hc, hs, if_true]
  rfl

theorem State.rebasedPayload_plain (hc : d.cell.clock = false) (hs : d.cell.stamped = false) :
    s.rebasedPayload d = d.cell.payload := by
  unfold State.rebasedPayload
  simp only [hc, hs]
  rfl

theorem State.rebasedPayload_clockField (hp : 5 ≤ d.cell.payload.length) (hc : d.cell.clock = true) :
    payloadClock (s.rebasedPayload d) 0 = s.movedClock d := by
  cases hs : d.cell.stamped with
  | true =>
    rw [State.rebasedPayload_both hc hs, payloadClock_writeClock_behind, payloadClock_writeClock (Nat.zero_le _)]
    rw [writeClock_length _ (by omega)]
    exact hp
  | false => rw [State.rebasedPayload_clock hc hs, payloadClock_writeClock (Nat.zero_le _)]

theorem State.rebasedPayload_stampField (hp : 5 ≤ d.cell.payload.length) (hs : d.cell.stamped = true) :
    payloadClock (s.rebasedPayload d) (if d.cell.clock then 5 else 0) =
      payloadClock d.cell.payload (if d.cell.clock then 5 else 0) + d.offset := by
  cases hc : d.cell.clock with
  | true =>
    rw [if_pos rfl, State.rebasedPayload_both hc hs, payloadClock_writeClock]
    rw [writeClock_length _ (by omega)]
    exact hp
  | false =>
    rw [if_neg Bool.false_ne_true, State.rebasedPayload_stamped hc hs, payloadClock_writeClock (Nat.zero_le _)]

theorem State.rebasedPayload_drop_five (h : d.cell.clock = false ∨ d.cell.stamped = false) :
    (s.rebasedPayload d).drop 5 = d.cell.payload.drop 5 := by
  cases hc : d.cell.clock with
  | true =>
    have hs : d.cell.stamped = false := h.resolve_left (by rw [hc]; decide)
    rw [State.rebasedPayload_clock hc hs, writeClock_drop (Nat.zero_le _) (by decide)]
  | false =>
    cases hs : d.cell.stamped with
    | true => rw [State.rebasedPayload_stamped hc hs, writeClock_drop (Nat.zero_le _) (by decide)]
    | false => rw [State.rebasedPayload_plain hc hs]

theorem State.rebasedPayload_drop_ten (hp : 5 ≤ d.cell.payload.length) :
    (s.rebasedPayload d).drop 10 = d.cell.payload.drop 10 := by
  by_cases h : d.cell.clock = false ∨ d.cell.stamped = false
  · have hfive := congrArg (List.drop 5) (State.rebasedPayload_drop_five (s := s) h)
    rwa [List.drop_drop, List.drop_drop] at hfive
  · obtain ⟨hc, hs⟩ := not_or.mp h
    rw [State.rebasedPayload_both (Bool.not_eq_false _ ▸ hc) (Bool.not_eq_false _ ▸ hs), writeClock_drop _ (by decide),
      writeClock_drop (Nat.zero_le _) (by decide)]
    rw [writeClock_length _ (by omega)]
    exact hp

theorem State.localCell_eq {x : ServiceEntry} {y : Component} (hx : s.services.get d.insertion.service = some x)
    (hy : x.components[d.cell.component]? = some y) : s.localCell d =
      Machine.formCell y.label y.nextContinuity d.cell.clock d.cell.start d.cell.stamped
        (!decide (d.cell.component ∈ d.play.started)) (s.rebasedPayload d) := by
  unfold State.localCell State.componentOf
  simp only [hx, hy, Option.getD_some]

end

/-! ## Settled -/

/-- Settles O47: the header of the formed cell, and the payload by its kind and its STAMPED flag. -/
theorem localCellRebased : Obligations.LocalCellRebased := by
  unfold Obligations.LocalCellRebased
  intro d s x y hx hy hlabel hcontinuity hp cell at_
  have hcell : cell = _ := State.localCell_eq hx hy
  have hlength : cell.length = 184 := State.localCell_length hp
  have hpayload : cell.drop 4 = s.rebasedPayload d := congrArg (List.drop 4) hcell
  clear_value cell
  obtain ⟨hclock, hstart, hstamped, hdisc, hspare⟩ :=
    formCell_flags d.cell.clock d.cell.start d.cell.stamped (!decide (d.cell.component ∈ d.play.started))
  have hfive : 5 ≤ d.cell.payload.length := by omega
  rw [hpayload]
  refine ⟨hlength, ?_, ?_, ?_, ?_, ?_, ?_, State.rebasedPayload_clockField hfive,
    State.rebasedPayload_stampField hfive, State.rebasedPayload_plain, State.rebasedPayload_drop_five,
    State.rebasedPayload_drop_ten hfive, ?_, ?_⟩
  all_goals subst hcell
  · exact cellLabel_formCell hlabel y.nextContinuity_lt
  · exact cellContinuity_formCell y.nextContinuity_lt
  · exact hclock
  · exact hstart
  · exact hstamped
  · refine (iff_of_eq (congrArg (· = true) hdisc)).trans ?_
    rw [Bool.not_eq_true', decide_eq_false_iff_not]
  · exact hspare
  · rfl

end Sys2Proof.Machine

/-! SUPPORT. The bytes of a transfer (R180 to R184). -/

namespace Sys2Proof.Machine

section

variable {s : State} {b x y : Byte} {rest held : Bytes}

/-! ## A byte shifted out (R180) -/

/-- The state once a byte has been shifted out with no reply under way. -/
def State.silentOut (s : State) : State := { s with control := { s.control with dataOut := 0 } }

theorem State.shiftOutByte_silent (h : s.control.shiftOut = []) : s.shiftOutByte = s.silentOut := by
  unfold State.shiftOutByte
  rw [h]
  rfl

theorem State.shiftOutByte_last (h : s.control.shiftOut = [x]) : s.shiftOutByte = { s with control := { s.control with
    dataOut := x, shiftOut := [], reply := .none } } := by
  unfold State.shiftOutByte
  rw [h]

theorem State.shiftOutByte_more (h : s.control.shiftOut = x :: y :: rest) : s.shiftOutByte =
    { s with control := { s.control with dataOut := x, shiftOut := y :: rest } } := by
  unfold State.shiftOutByte
  rw [h]

theorem ControlLink.lastOutDue_iff {c : ControlLink} : c.lastOutDue = true ↔ c.shiftOut.length = 1 := beq_iff_eq

theorem State.linkByte_outFirst (h : s.control.shiftOut.length ≠ 1) : s.linkByte b = s.byteOutFirst b := by
  refine if_neg fun hand => h ?_
  exact ControlLink.lastOutDue_iff.mp (Bool.and_eq_true _ _ ▸ hand).1

theorem exec_controlLinkByte (hs : s.control.selected = true) (h : s.control.shiftOut.length ≠ 1) :
    exec (.controlLinkByte b) s = .next (s.shiftOutByte.receiveByte b) :=
  congrArg Host.Outcome.next ((if_pos hs).trans (State.linkByte_outFirst h))

theorem exec_controlLinkByte_silent (hs : s.control.selected = true) (h : s.control.shiftOut = []) :
    exec (.controlLinkByte b) s = .next (s.silentOut.receiveByte b) := by
  rw [exec_controlLinkByte hs (by rw [h]; exact Nat.zero_ne_one), State.shiftOutByte_silent h]

/-! ## A byte shifted in (R181, R182) -/

theorem State.receiveByte_hunt (h : s.control.receiver = .hunt) : s.receiveByte b = s.setReceiver (huntByte b) := by
  unfold State.receiveByte
  rw [h]

theorem State.receiveByte_sync (h : s.control.receiver = .sync) (hb : b = 0x5D#8) :
    s.receiveByte b = s.setReceiver (.header []) := by
  unfold State.receiveByte
  rw [h]
  exact if_pos hb

theorem State.receiveByte_syncError (h : s.control.receiver = .sync) (hb : b ≠ 0x5D#8) : s.receiveByte b =
    (s.setReceiver (huntByte b)).discardFrame (fun d => { d with sync := bump d.sync }) := by
  unfold State.receiveByte
  rw [h]
  exact if_neg hb

theorem State.receiveByte_header (h : s.control.receiver = .header held) : s.receiveByte b = s.headerByte held b := by
  unfold State.receiveByte
  rw [h]

theorem State.receiveByte_discard (h : s.control.receiver = .discard) : s.receiveByte b = s := by
  unfold State.receiveByte
  rw [h]

theorem headerLength_pair (a b : Byte) : headerLength [a, b] = a.toNat * 256 + b.toNat := by
  show (0 * 256 + a.toNat) * 256 + b.toNat = _
  rw [Nat.zero_mul, Nat.zero_add]

theorem State.headerByte_tooLong {a : Byte} (h : 1600 < a.toNat * 256 + b.toNat) : s.headerByte [a] b =
    (s.setReceiver .discard).discardFrame (fun d => { d with length := bump d.length }) :=
  if_pos ⟨rfl, by rw [show [a] ++ [b] = [a, b] from rfl, headerLength_pair]; exact h⟩

/-! ## The events that name a byte (log entry 4) -/

theorem exec_syncError (hs : s.control.selected = true) (hr : s.control.receiver = .sync) (hb : b ≠ 0x5D#8)
    (ho : s.control.shiftOut = []) : exec (.syncError b) s = .next (s.silentOut.receiveByte b) := by
  have hdue : (s.control.selected && s.control.syncErrorDue b) = true := by
    rw [hs, ControlLink.syncErrorDue, hr, decide_eq_true hb]
    rfl
  rw [← State.shiftOutByte_silent ho]
  exact congrArg Host.Outcome.next (if_pos hdue)

theorem exec_lengthError {a : Byte} (hs : s.control.selected = true) (hr : s.control.receiver = .header [a])
    (hl : 1600 < a.toNat * 256 + b.toNat) (ho : s.control.shiftOut = []) :
    exec (.lengthError b) s = .next (s.silentOut.receiveByte b) := by
  have hdue : (s.control.selected && s.control.lengthErrorDue b) = true := by
    rw [hs, ControlLink.lengthErrorDue, hr, Bool.true_and]
    exact decide_eq_true (by rw [headerLength_pair]; exact hl)
  rw [← State.shiftOutByte_silent ho]
  exact congrArg Host.Outcome.next (if_pos hdue)

theorem exec_replyRead (hs : s.control.selected = true) (ho : s.control.shiftOut = [x]) :
    exec (.replyRead b) s = .next (s.shiftOutByte.receiveByte b) := by
  have hdue : (s.control.selected && s.control.lastOutDue) = true := by
    rw [hs, Bool.true_and]
    exact ControlLink.lastOutDue_iff.mpr (by rw [ho]; rfl)
  exact congrArg Host.Outcome.next (if_pos hdue)

/-! ## Transfers (R180, R182) -/

theorem exec_transferStart (hs : s.control.selected = false) : exec .transferStart s = .next s.beginTransfer :=
  congrArg Host.Outcome.next (if_neg (ne_true_of_eq_false hs))

theorem exec_transferEnd (hs : s.control.selected = true) : exec .transferEnd s = .next s.endTransfer :=
  congrArg Host.Outcome.next (if_pos hs)

theorem FrameReceiver.inFrame_iff {r : FrameReceiver} : r.inFrame = true ↔ r ≠ .hunt ∧ r ≠ .discard := by
  cases r <;> simp [FrameReceiver.inFrame]

theorem State.endTransfer_quiet (h : s.control.receiver = .hunt ∨ s.control.receiver = .discard) :
    s.endTransfer = { s with control := { s.control with selected := false, receiver := .hunt, shiftOut := [] } } := by
  refine if_neg fun hin => ?_
  obtain ⟨hhunt, hdiscard⟩ := FrameReceiver.inFrame_iff.mp hin
  exact h.elim hhunt hdiscard

theorem State.endTransfer_cut (h1 : s.control.receiver ≠ .hunt) (h2 : s.control.receiver ≠ .discard) :
    s.endTransfer = ({ s with control := { s.control with selected := false, receiver := .hunt, shiftOut := [] } } :
      State).discardFrame (fun d => { d with cut := bump d.cut }) :=
  if_pos (FrameReceiver.inFrame_iff.mpr ⟨h1, h2⟩)

end

/-! ## Settled -/

/-- Settles O53: by the receiver's state and by what is left to shift out. -/
theorem controlLinkBytes : Obligations.ControlLinkBytes := by
  unfold Obligations.ControlLinkBytes
  refine ⟨⟨fun b s hs ho => ⟨fun hr => ?_, fun hr hb => ?_, fun hr hb => ?_⟩, fun a b s hs ho hr hl => ?_⟩,
    ⟨fun s hs => ?_, fun s hs => ⟨fun hr => ?_, fun h1 h2 => ?_⟩⟩, fun b x s hs ho hr => ?_, fun b x y rest s hs ho hr => ?_⟩
  · rw [exec_controlLinkByte_silent hs ho, State.receiveByte_hunt (s := s.silentOut) hr]
    rfl
  · rw [exec_controlLinkByte_silent hs ho, State.receiveByte_sync (s := s.silentOut) hr hb]
    rfl
  · rw [exec_controlLinkByte_silent hs ho, exec_syncError hs hr hb ho, State.receiveByte_syncError (s := s.silentOut) hr hb]
    exact ⟨rfl, rfl⟩
  · rw [exec_controlLinkByte_silent hs ho, exec_lengthError hs hr hl ho, State.receiveByte_header (s := s.silentOut) hr,
      State.headerByte_tooLong hl]
    refine ⟨rfl, rfl, fun c t ht => ?_⟩
    have hnext := Host.Outcome.next.inj ht
    subst hnext
    rw [exec_controlLinkByte_silent (by exact hs) (by exact ho), State.receiveByte_discard rfl]
    rfl
  · rw [exec_transferStart hs]
    rfl
  · rw [exec_transferEnd hs, State.endTransfer_quiet hr]
  · rw [exec_transferEnd hs, State.endTransfer_cut h1 h2]
    rfl
  · rw [exec_replyRead hs ho, State.shiftOutByte_last ho, State.receiveByte_hunt (by exact hr)]
    rfl
  · rw [exec_controlLinkByte hs (by rw [ho]; simp), State.shiftOutByte_more ho, State.receiveByte_hunt (by exact hr)]
    rfl

end Sys2Proof.Machine

/-! SUPPORT. Requests as the Control Link handles and answers them, and replies made ready (R185 to R187). -/

namespace Sys2Proof.Machine

/-! ## Replies made ready (R187) -/

theorem beBytes_one (n : Nat) : beBytes 1 n = [BitVec.ofNat 8 n] := by
  show [BitVec.ofNat 8 (n / 256 ^ 0)] = _
  rw [Nat.pow_zero, Nat.div_one]

/-- The flag byte of the status summary (12, section 12.4). -/
theorem summary_flags : ∀ permit lost error : Bool, flagBit permit 0 ||| flagBit lost 1 ||| flagBit error 2 =
    BitVec.ofNat 8 ((if permit then 1 else 0) + (if lost then 2 else 0) + (if error then 4 else 0)) := by decide

theorem State.makeReady_handled {s : State} {kind tag : BitVec 16} {code : ResultCode} {fields : Bytes}
    (h : s.control.reply = .handled kind tag code fields) : s.makeReady = s.readyReply kind tag code fields := by
  unfold State.makeReady
  rw [h]

theorem State.summary_eq (s : State) : s.summary = [BitVec.ofNat 8 s.time.stepState.code,
    BitVec.ofNat 8 ((if s.output.permit then 1 else 0) + (if s.control.noticesLost then 2 else 0) +
      (if s.control.frameError then 4 else 0)), BitVec.ofNat 8 s.control.notices.length, 0] := by
  unfold State.summary
  rw [beBytes_one, beBytes_one, summary_flags]
  rfl

/-- Settles O52: the frame that `readyReply` forms, byte by byte. -/
theorem replyMadeReady : Obligations.ReplyMadeReady := by
  unfold Obligations.ReplyMadeReady
  refine fun s kind tag code fields h => ⟨s.readyReply kind tag code fields,
    congrArg Host.Outcome.next (State.makeReady_handled h), ?_, rfl⟩
  unfold State.readyReply
  rw [State.summary_eq, beBytes_one]
  rfl

/-! ## What a request comes to (R185, R186) -/

/-- What a request does: a busy discard while it may not be handled; else an end of its handling which is a refusal that
changes no other state wherever its code is not OK. -/
def RequestAnswers (i : Instr) (kind tag : BitVec 16) : Prop :=
  ∃ f : State → State, (∀ s, exec i s = .next (if s.mayHandle i then f s else s.discardBusy)) ∧
    ∀ s code fields, (f s).control.reply = .handled kind tag code fields → code ≠ .ok →
      f s = s.refusalWaits kind tag code ∧ fields = []

section

variable {i : Instr} {kind tag : BitVec 16}

theorem State.answered_fails {s : State} {a : Answer} {code : ResultCode} {fields : Bytes}
    (h : (s.answered kind tag a).control.reply = .handled kind tag code fields) (hc : code ≠ .ok) :
    s.answered kind tag a = s.refusalWaits kind tag code ∧ fields = [] := by
  cases a with
  | ok t f =>
    obtain ⟨_, _, hok, _⟩ := ReplyPhase.handled.inj h
    exact absurd hok.symm hc
  | refuse code' =>
    obtain ⟨_, _, rfl, rfl⟩ := ReplyPhase.handled.inj h
    exact ⟨rfl, rfl⟩

theorem requestAnswers_of_request {handle : State → Answer} (h : ∀ s, exec i s = .next (s.request i kind tag handle)) :
    RequestAnswers i kind tag := by
  refine ⟨fun s => if i.wellFormed then s.answered kind tag (handle s) else s.answered kind tag (.refuse .format), h,
    fun s code fields hr hc => ?_⟩
  dsimp only at hr ⊢
  split at hr
  · next hw =>
    rw [if_pos hw]
    exact State.answered_fails hr hc
  · next hw =>
    rw [if_neg hw]
    exact State.answered_fails hr hc

theorem requestAnswers_of_ready {handle : State → State × Bytes}
    (h : ∀ s, exec i s = .next (s.requestReady i kind tag handle)) : RequestAnswers i kind tag :=
  ⟨fun s => (handle s).1.readyReply kind tag .ok (handle s).2, h, fun _ _ _ hr => nomatch hr⟩

/-- Every request is handled as R185 and R186 have it. -/
theorem requestKind_answers (h : requestKind i = some (kind, tag)) : RequestAnswers i kind tag := by
  cases i
  case noticeFetch | statusRead =>
    cases h
    exact requestAnswers_of_ready fun _ => rfl
  case systemRestart tag =>
    cases h
    exact ⟨fun s => (s.readyReply 0x0705#16 tag .ok []).restart, fun _ => rfl, fun _ _ _ hr => nomatch hr⟩
  case powerOnReset | secondBoundary | holdoverExpired | ppsEdge | referenceLost | cellArrival | runt | overlong |
      linkTimeout | cellTake | releaseComputation | timingCell | cueTake | slotBoundary | returnLimitExpiry |
      transferStart | transferEnd | syncError | lengthError | completeFrame | replyMadeReady | replyRead | linkByte |
      controlLinkByte => exact nomatch h
  all_goals
    cases h
    exact requestAnswers_of_request fun _ => rfl

end

/-- Settles O51, by the form that the handling of every request has. -/
theorem busyAndRefusal : Obligations.BusyAndRefusal := by
  unfold Obligations.BusyAndRefusal
  refine ⟨fun i kind tag s hk h1 h2 => ?_, fun i kind tag s t code fields hk hmay hexec hreply hcode => ?_⟩
  · obtain ⟨f, hf, _⟩ := requestKind_answers hk
    rw [hf, if_neg fun hm => ((s.mayHandle_iff i).mp hm).elim h1 h2]
    rfl
  · obtain ⟨f, hf, hfails⟩ := requestKind_answers hk
    rw [hf, if_pos ((s.mayHandle_iff i).mpr hmay)] at hexec
    obtain rfl := Host.Outcome.next.inj hexec
    exact hfails s code fields hreply hcode

end Sys2Proof.Machine

/-! SUPPORT. Notices fetched, the status and the counts read (R189 to R194). -/

namespace Sys2Proof.Machine

section

variable {s : State} {k : Nat} {index : Nat} {scope clear : Byte}

/-! ## NOTICE.FETCH and STATUS.READ -/

theorem exec_noticeFetch_handled {tag : BitVec 16} (h : s.mayTake (.noticeFetch tag)) : exec (.noticeFetch tag) s =
    .next ((handleNoticeFetch s).1.readyReply 0x0701#16 tag .ok (handleNoticeFetch s).2) :=
  congrArg Host.Outcome.next (State.requestReady_handled _ _ _ h)

theorem State.readyReply_reply (kind tag : BitVec 16) (code : ResultCode) (fields : Bytes) :
    (s.readyReply kind tag code fields).control.reply =
      .ready (frameOf (kind + 0x8000#16) tag (beBytes 1 code.code ++ s.summary ++ fields)) := rfl

theorem handleNoticeFetch_fields : (handleNoticeFetch s).2 =
    [BitVec.ofNat 8 (s.control.notices.take 8).length] ++ (s.control.notices.take 8).flatMap Notice.bytes :=
  congrArg (· ++ (s.control.notices.take 8).flatMap Notice.bytes) (beBytes_one _)

theorem exec_statusRead_handled {tag : BitVec 16} (h : s.mayTake (.statusRead tag)) : exec (.statusRead tag) s =
    .next (s.readyReply 0x0703#16 tag .ok (handleStatusRead s).2) :=
  congrArg Host.Outcome.next (State.requestReady_handled _ _ _ h)

theorem State.recordsIn_eq (st : RecordState) (s : State) :
    s.recordsIn st = s.insertions.countP (fun p => decide (p.2.state = st)) := List.countP_eq_length_filter.symm

/-! ## COUNTS.READ -/

/-- The scope and the index name a link, a stream or a service. -/
def countsNamed (scope : Byte) (index : Nat) : Prop :=
  (scope = 0#8 ∧ index ≤ 1) ∨ (scope = 1#8 ∧ index ≤ 511) ∨ (scope = 2#8 ∧ index ≤ 63)

theorem handleCountsRead_flag (h : clear ≠ 0#8 ∧ clear ≠ 1#8) : handleCountsRead scope index clear s = .refuse .range := by
  have hn : readFlag clear = none := (readFlag_eq clear).trans (if_neg (by obtain ⟨h0, h1⟩ := h; bv_omega))
  unfold handleCountsRead
  rw [hn]

theorem handleCountsRead_some {c : Bool} (h : readFlag clear = some c) : handleCountsRead scope index clear s =
    if scope = 0 ∧ index = 0 then readLinkCounts .a c s
    else if scope = 0 ∧ index = 1 then readLinkCounts .b c s
    else if scope = 1 ∧ index ≤ 511 then readStreamCounts index c s
    else if scope = 2 ∧ index ≤ 63 then readServiceCounts index c s
    else .refuse .range := by
  unfold handleCountsRead
  rw [h]

theorem handleCountsRead_unnamed {c : Bool} (h : readFlag clear = some c) (hn : ¬countsNamed scope index) :
    handleCountsRead scope index clear s = .refuse .range := by
  obtain ⟨hlink, hrest⟩ := not_or.mp hn
  obtain ⟨hstream, hservice⟩ := not_or.mp hrest
  exact (handleCountsRead_some h).trans ((if_neg fun hl => hlink ⟨hl.1, by omega⟩).trans
    ((if_neg fun hl => hlink ⟨hl.1, by omega⟩).trans ((if_neg hstream).trans (if_neg hservice))))

theorem handleCountsRead_linkA {c : Bool} (h : readFlag clear = some c) (hs : scope = 0#8) (hi : index = 0) :
    handleCountsRead scope index clear s = readLinkCounts .a c s :=
  (handleCountsRead_some h).trans (if_pos ⟨hs, hi⟩)

theorem handleCountsRead_linkB {c : Bool} (h : readFlag clear = some c) (hs : scope = 0#8) (hi : index = 1) :
    handleCountsRead scope index clear s = readLinkCounts .b c s :=
  (handleCountsRead_some h).trans ((if_neg fun hl => by omega).trans (if_pos ⟨hs, hi⟩))

theorem handleCountsRead_stream {c : Bool} (h : readFlag clear = some c) (hs : scope = 1#8) (hi : index ≤ 511) :
    handleCountsRead scope index clear s = readStreamCounts index c s := by
  have h0 : scope ≠ 0 := by rw [hs]; decide
  exact (handleCountsRead_some h).trans ((if_neg fun hl => h0 hl.1).trans ((if_neg fun hl => h0 hl.1).trans
    (if_pos ⟨hs, hi⟩)))

theorem handleCountsRead_service {c : Bool} (h : readFlag clear = some c) (hs : scope = 2#8) (hi : index ≤ 63) :
    handleCountsRead scope index clear s = readServiceCounts index c s := by
  have h0 : scope ≠ 0 := by rw [hs]; decide
  have h1 : scope ≠ 1 := by rw [hs]; decide
  exact (handleCountsRead_some h).trans ((if_neg fun hl => h0 hl.1).trans ((if_neg fun hl => h0 hl.1).trans
    ((if_neg fun hl => h1 hl.1).trans (if_pos ⟨hs, hi⟩))))

/-- What a reading of the counts answers: the fields as they stand, and the state with the counts cleared where asked. -/
def countsFields (scope : Byte) (index : Nat) (s : State) : Bytes :=
  let link (k : LinkState) : Bytes := encFirst k.up ++ ([k.counts.cells, k.counts.crcErrors, k.counts.runts,
    k.counts.overlong, k.counts.badStamps, k.counts.overruns, k.counts.unknownOrigin, k.counts.streamMisses,
    k.counts.firstArrivals, k.counts.secondArrivals].flatMap (beBytes 4))
  if scope = 0#8 then link (if index = 0 then s.linkA else s.linkB)
  else if scope = 1#8 then (match s.streams.get index with
    | some e => 1 :: ([e.counts.accepted, e.counts.duplicate, e.counts.stale, e.counts.lost, e.counts.late,
        e.counts.early, e.counts.collision, e.counts.misaligned, e.counts.untimed,
        e.counts.inconsistent].flatMap (beBytes 4))
    | none => List.replicate 41 0)
  else (match s.services.get index with
    | some e => 1 :: ([e.replaced, e.localCells, e.nulls].flatMap (beBytes 4))
    | none => List.replicate 13 0)

/-- The state with the counts of the named link, stream or service cleared. -/
def State.countsCleared (scope : Byte) (index : Nat) (s : State) : State :=
  if scope = 0#8 then
    if index = 0 then { s with linkA := { s.linkA with counts := .zero } }
    else { s with linkB := { s.linkB with counts := .zero } }
  else if scope = 1#8 then { s with streams := s.streams.update index (fun e => { e with counts := .zero }) }
  else s.updateService index (fun e => { e with replaced := 0, localCells := 0, nulls := 0 })

theorem handleCountsRead_named {c : Bool} (h : readFlag clear = some c) (hn : countsNamed scope index) :
    handleCountsRead scope index clear s =
      .ok (if c then s.countsCleared scope index else s) (countsFields scope index s) := by
  rcases hn with ⟨hs, hi⟩ | ⟨hs, hi⟩ | ⟨hs, hi⟩
  · obtain rfl | rfl : index = 0 ∨ index = 1 := by omega
    · rw [handleCountsRead_linkA h hs rfl]
      subst hs
      rfl
    · rw [handleCountsRead_linkB h hs rfl]
      subst hs
      rfl
  · rw [handleCountsRead_stream h hs hi]
    subst hs
    unfold readStreamCounts countsFields
    refine congrArg (Answer.ok _) ?_
    dsimp only
    rw [if_neg (by decide), if_pos rfl]
    cases s.streams.get index with
    | none => rfl
    | some e => rfl
  · rw [handleCountsRead_service h hs hi]
    subst hs
    unfold readServiceCounts countsFields
    refine congrArg (Answer.ok _) ?_
    dsimp only
    rw [if_neg (by decide), if_neg (by decide)]
    cases s.services.get index with
    | none => rfl
    | some e => rfl

theorem exec_countsRead_handled {tag idx : BitVec 16} (h : s.mayTake (.countsRead tag scope idx clear)) :
    exec (.countsRead tag scope idx clear) s =
      .next (s.answered 0x0704#16 tag (handleCountsRead scope idx.toNat clear s)) :=
  congrArg Host.Outcome.next (State.request_handled _ _ _ h rfl)

theorem Table.get_update_map {α : Type} (t : Table α) (k j : Nat) (f : α → α) :
    (t.update k f).get j = (t.get j).map (fun e => if j = k then f e else e) := by
  by_cases hj : j = k
  · subst hj
    simp only [if_true, Table.get_update_same]
  · simp only [if_neg hj, Option.map_id', Table.get_update_other _ _ hj]

end

/-! ## Settled -/

/-- Settles O54: each request by the fields it answers with; the counts by what the scope and the index name. -/
theorem noticesStatusAndCounts : Obligations.NoticesStatusAndCounts := by
  unfold Obligations.NoticesStatusAndCounts
  refine ⟨fun d s => ⟨State.raise_room d, State.raise_full d⟩, fun tag s hmay => ?_, fun tag s hmay => ?_,
    fun tag scope index clear s hmay => ⟨fun hbad => ?_, fun hn hc => ?_, fun hn hc => ?_⟩⟩
  · refine ⟨_, exec_noticeFetch_handled hmay, rfl, rfl, rfl, ?_, rfl, rfl, rfl, rfl, rfl⟩
    rw [State.readyReply_reply, handleNoticeFetch_fields, ← List.append_assoc]
    rfl
  · rw [exec_statusRead_handled hmay]
    unfold handleStatusRead State.readyReply
    simp only [List.flatMap_cons, List.flatMap_nil, List.append_nil, State.recordsIn_eq, DiscardCounts.fields,
      List.append_assoc]
    rfl
  · have hrefuse : handleCountsRead scope index.toNat clear s = .refuse .range := by
      rcases hbad with hbad | hbad
      · cases hf : readFlag clear with
        | none => unfold handleCountsRead; rw [hf]
        | some c => exact handleCountsRead_unnamed hf hbad
      · exact handleCountsRead_flag hbad
    rw [exec_countsRead_handled hmay, hrefuse, State.answered_refuse]
  · subst hc
    rw [exec_countsRead_handled hmay, handleCountsRead_named (c := false) rfl hn, State.answered_ok]
    rfl
  · subst hc
    refine ⟨s.countsCleared scope index.toNat, ?_, fun hs hi => ?_, fun hs hi => ?_, fun hs => ?_, fun hs => ?_⟩
    · rw [exec_countsRead_handled hmay, handleCountsRead_named (c := true) rfl hn, State.answered_ok]
      rfl
    · exact (if_pos hs).trans (if_pos hi)
    · exact (if_pos hs).trans (if_neg (by omega))
    · have ht : s.countsCleared scope index.toNat = _ := (if_neg (by rw [hs]; decide)).trans (if_pos hs)
      rw [ht]
      exact ⟨rfl, fun k => Table.get_update_map _ _ _ _⟩
    · have ht : s.countsCleared scope index.toNat = _ :=
        (if_neg (by rw [hs]; decide)).trans (if_neg (by rw [hs]; decide))
      rw [ht]
      exact ⟨rfl, fun k => Table.get_update_map _ _ _ _⟩

end Sys2Proof.Machine

/-! SUPPORT. Requests written and read back, each way (R186, R201; log entry 17). -/

namespace Sys2Proof.Machine

/-! ## Fields written and read -/

section

variable {bs : Bytes} {start n w : Nat}

/-- The bytes of a number are those of its low part. -/
theorem beBytes_add_mul (k m n : Nat) : beBytes k (m * 256 ^ k + n) = beBytes k n := by
  induction k generalizing m with
  | zero => rfl
  | succ k ih =>
    have hsplit : m * 256 ^ (k + 1) + n = m * 256 * 256 ^ k + n := by rw [Nat.pow_succ']; ring
    have hhead : BitVec.ofNat 8 ((m * 256 * 256 ^ k + n) / 256 ^ k) = BitVec.ofNat 8 (n / 256 ^ k) := by
      refine BitVec.eq_of_toNat_eq ?_
      rw [Nat.mul_comm (m * 256), Nat.mul_add_div (by positivity), BitVec.toNat_ofNat, BitVec.toNat_ofNat]
      omega
    rw [hsplit, beBytes, beBytes, hhead, ih]

theorem fieldBits_of_run {v : BitVec w} (hw : 8 * (w / 8) = w) (h : (bs.drop start).take (w / 8) = bitsBytes v) :
    fieldBits w bs start = v := by
  have hlt : v.toNat < 256 ^ (w / 8) := by
    rw [show (256 : Nat) = 2 ^ 8 from rfl, ← Nat.pow_mul, hw]
    exact v.isLt
  unfold fieldBits fieldNat
  rw [h, bitsBytes, beNat_beBytes_of_lt hlt, BitVec.ofNat_toNat, BitVec.setWidth_eq]

theorem fieldBits_bits {v : BitVec w} (hw : 8 * (w / 8) = w) : fieldBits w (bitsBytes v) 0 = v :=
  fieldBits_of_run hw (by rw [List.drop_zero, List.take_of_length_le (bitsBytes_length v).le])

/-- A run of bytes is written again by the number it spells. -/
theorem beBytes_beNat (bs : Bytes) : beBytes bs.length (beNat bs) = bs := by
  induction bs with
  | nil => rfl
  | cons b bs ih =>
    have hlt := beNat_lt bs
    have hhead : (b.toNat * 256 ^ bs.length + beNat bs) / 256 ^ bs.length = b.toNat := by
      rw [Nat.mul_comm, Nat.mul_add_div (by positivity), Nat.div_eq_of_lt hlt, Nat.add_zero]
    have htail : beBytes bs.length (b.toNat * 256 ^ bs.length + beNat bs) = beBytes bs.length (beNat bs) :=
      beBytes_add_mul _ _ _
    rw [beNat_cons, List.length_cons, beBytes, hhead, htail, ih, BitVec.ofNat_toNat, BitVec.setWidth_eq]

theorem bitsBytes_fieldBits (hw : 8 * (w / 8) = w) (h : start + w / 8 ≤ bs.length) :
    bitsBytes (fieldBits w bs start) = (bs.drop start).take (w / 8) := by
  have hlen : ((bs.drop start).take (w / 8)).length = w / 8 := by
    rw [List.length_take, List.length_drop]
    omega
  have hlt : beNat ((bs.drop start).take (w / 8)) < 2 ^ w := by
    have hrun := beNat_lt ((bs.drop start).take (w / 8))
    rwa [hlen, show (256 : Nat) = 2 ^ 8 from rfl, ← Nat.pow_mul, hw] at hrun
  have hbytes := beBytes_beNat ((bs.drop start).take (w / 8))
  rw [hlen] at hbytes
  unfold bitsBytes fieldBits fieldNat
  rw [BitVec.toNat_ofNat, Nat.mod_eq_of_lt hlt, hbytes]

/-- A run of bytes of known length, byte by byte. -/
theorem exists_bytes (h : bs.length = n) : ∃ f : Fin n → Byte, bs = List.ofFn f := by
  subst h
  exact ⟨bs.get, (List.ofFn_get bs).symm⟩

/-- A run of bytes that begins with some of known length. -/
theorem exists_head (h : n ≤ bs.length) : ∃ f : Fin n → Byte, bs = List.ofFn f ++ bs.drop n := by
  obtain ⟨f, hf⟩ := exists_bytes (bs := bs.take n) (n := n) (by rw [List.length_take]; omega)
  exact ⟨f, by rw [← hf, List.take_append_drop]⟩

theorem takeRuns_length (w n : Nat) (bs : Bytes) : (takeRuns w n bs).length = n := by
  induction n generalizing bs with
  | zero => rfl
  | succ n ih => rw [takeRuns, List.length_cons, ih]

/-- Bytes taken apart in runs of one width are laid end to end again. -/
theorem flatten_takeRuns (h : bs.length = w * n) : (takeRuns w n bs).flatten = bs ∧ ∀ r ∈ takeRuns w n bs, r.length = w := by
  induction n generalizing bs with
  | zero =>
    rw [Nat.mul_zero, List.length_eq_zero_iff] at h
    exact ⟨h.symm ▸ rfl, fun r hr => nomatch hr⟩
  | succ n ih =>
    obtain ⟨hflat, hruns⟩ := ih (bs := bs.drop w) (by rw [List.length_drop, h, Nat.mul_succ]; omega)
    refine ⟨by rw [takeRuns, List.flatten_cons, hflat, List.take_append_drop], fun r hr => ?_⟩
    rcases List.mem_cons.mp hr with rfl | hr
    · rw [List.length_take, h, Nat.mul_succ]
      omega
    · exact hruns r hr

end

/-! ## A request's body read back -/

/-- The request reads back from its body. -/
def ReadsBack (i : Instr) (kind tag : BitVec 16) : Prop := readRequest kind tag (requestBody i) = .request i

section

variable (tag : BitVec 16)

theorem readsBack_timeConfig (b : TimeConfigBody) : ReadsBack (.timeConfig tag b) 0x0101#16 tag := by
  have hread : readRequest 0x0101#16 tag (requestBody (.timeConfig tag b)) = .request (.timeConfig tag { b with
    window := fieldBits 16 (requestBody (.timeConfig tag b)) 4
    holdover := fieldBits 24 (requestBody (.timeConfig tag b)) 7 }) := rfl
  rw [ReadsBack, hread, fieldBits_of_run (v := b.window) rfl rfl, fieldBits_of_run (v := b.holdover) rfl rfl]

theorem readsBack_streamSet (b : StreamSetBody) : ReadsBack (.streamSet tag b) 0x0203#16 tag := by
  have hread : readRequest 0x0203#16 tag (requestBody (.streamSet tag b)) = .request (.streamSet tag { b with
    index := fieldBits 16 (requestBody (.streamSet tag b)) 0
    label := fieldBits 16 (requestBody (.streamSet tag b)) 2 }) := rfl
  rw [ReadsBack, hread, fieldBits_of_run (v := b.index) rfl rfl, fieldBits_of_run (v := b.label) rfl rfl]

theorem readsBack_siteConfig (b : SiteConfigBody) : ReadsBack (.siteConfig tag b) 0x0401#16 tag := by
  have hread : readRequest 0x0401#16 tag (requestBody (.siteConfig tag b)) = .request (.siteConfig tag { b with
    siteId := fieldBits 16 (requestBody (.siteConfig tag b)) 0
    period := fieldBits 32 (requestBody (.siteConfig tag b)) 3
    offset := fieldBits 32 (requestBody (.siteConfig tag b)) 7
    latency := fieldBits 32 (requestBody (.siteConfig tag b)) 11
    dn0 := fieldBits 32 (requestBody (.siteConfig tag b)) 15
    holdMax := fieldBits 32 (requestBody (.siteConfig tag b)) 19
    linkTimeout := fieldBits 16 (requestBody (.siteConfig tag b)) 25 }) := rfl
  rw [ReadsBack, hread, fieldBits_of_run (v := b.siteId) rfl rfl, fieldBits_of_run (v := b.period) rfl rfl,
    fieldBits_of_run (v := b.offset) rfl rfl, fieldBits_of_run (v := b.latency) rfl rfl,
    fieldBits_of_run (v := b.dn0) rfl rfl, fieldBits_of_run (v := b.holdMax) rfl rfl,
    fieldBits_of_run (v := b.linkTimeout) rfl rfl]

theorem readsBack_clipDefine (b : ClipDefineBody) : ReadsBack (.clipDefine tag b) 0x0501#16 tag := by
  have hread : readRequest 0x0501#16 tag (requestBody (.clipDefine tag b)) = .request (.clipDefine tag { b with
    base := fieldBits 32 (requestBody (.clipDefine tag b)) 1
    capacity := fieldBits 32 (requestBody (.clipDefine tag b)) 5
    duration := fieldBits 24 (requestBody (.clipDefine tag b)) 9
    clock := fieldBits 40 (requestBody (.clipDefine tag b)) 12
    period := fieldBits 32 (requestBody (.clipDefine tag b)) 17 }) := rfl
  rw [ReadsBack, hread, fieldBits_of_run (v := b.base) rfl rfl, fieldBits_of_run (v := b.capacity) rfl rfl,
    fieldBits_of_run (v := b.duration) rfl rfl, fieldBits_of_run (v := b.clock) rfl rfl,
    fieldBits_of_run (v := b.period) rfl rfl]

theorem readsBack_insertArm (b : InsertArmBody) : ReadsBack (.insertArm tag b) 0x0601#16 tag := by
  have hread : readRequest 0x0601#16 tag (requestBody (.insertArm tag b)) = .request (.insertArm tag { b with
    cueId := fieldBits 32 (requestBody (.insertArm tag b)) 3
    second := fieldBits 32 (requestBody (.insertArm tag b)) 7
    slot := fieldBits 24 (requestBody (.insertArm tag b)) 11
    length := fieldBits 24 (requestBody (.insertArm tag b)) 16
    limit := fieldBits 32 (requestBody (.insertArm tag b)) 20 }) := rfl
  rw [ReadsBack, hread, fieldBits_of_run (v := b.cueId) rfl rfl, fieldBits_of_run (v := b.second) rfl rfl,
    fieldBits_of_run (v := b.slot) rfl rfl, fieldBits_of_run (v := b.length) rfl rfl,
    fieldBits_of_run (v := b.limit) rfl rfl]

theorem readsBack_timeSet (second : BitVec 32) :
    ReadsBack (.timeSet tag second) 0x0102#16 tag := by
  have hread : readRequest 0x0102#16 tag (requestBody (.timeSet tag second)) =
      .request (.timeSet tag (fieldBits 32 (requestBody (.timeSet tag second)) 0)) := rfl
  rw [ReadsBack, hread, fieldBits_of_run (v := second) rfl rfl]

theorem readsBack_originSet (index valid : Byte) (originId : BitVec 32) (links : Byte) :
    ReadsBack (.originSet tag index valid originId links) 0x0201#16 tag := by
  have hread : readRequest 0x0201#16 tag (requestBody (.originSet tag index valid originId links)) =
      .request (.originSet tag index valid (fieldBits 32 (requestBody (.originSet tag index valid originId links)) 2) links) := rfl
  rw [ReadsBack, hread, fieldBits_of_run (v := originId) rfl rfl]

theorem readsBack_streamClear (index : BitVec 16) :
    ReadsBack (.streamClear tag index) 0x0204#16 tag := by
  have hread : readRequest 0x0204#16 tag (requestBody (.streamClear tag index)) =
      .request (.streamClear tag (fieldBits 16 (requestBody (.streamClear tag index)) 0)) := rfl
  rw [ReadsBack, hread, fieldBits_of_run (v := index) rfl rfl]

theorem readsBack_streamRead (index : BitVec 16) :
    ReadsBack (.streamRead tag index) 0x0205#16 tag := by
  have hread : readRequest 0x0205#16 tag (requestBody (.streamRead tag index)) =
      .request (.streamRead tag (fieldBits 16 (requestBody (.streamRead tag index)) 0)) := rfl
  rw [ReadsBack, hread, fieldBits_of_run (v := index) rfl rfl]

theorem readsBack_planSwapRequest (second : BitVec 32) :
    ReadsBack (.planSwapRequest tag second) 0x0404#16 tag := by
  have hread : readRequest 0x0404#16 tag (requestBody (.planSwapRequest tag second)) =
      .request (.planSwapRequest tag (fieldBits 32 (requestBody (.planSwapRequest tag second)) 0)) := rfl
  rw [ReadsBack, hread, fieldBits_of_run (v := second) rfl rfl]

theorem readsBack_planRead (bank : Byte) (first count : BitVec 16) :
    ReadsBack (.planRead tag bank first count) 0x0406#16 tag := by
  have hread : readRequest 0x0406#16 tag (requestBody (.planRead tag bank first count)) =
      .request (.planRead tag bank (fieldBits 16 (requestBody (.planRead tag bank first count)) 1)
        (fieldBits 16 (requestBody (.planRead tag bank first count)) 3)) := rfl
  rw [ReadsBack, hread, fieldBits_of_run (v := first) rfl rfl, fieldBits_of_run (v := count) rfl rfl]

theorem readsBack_countsRead (scope : Byte) (index : BitVec 16) (clear : Byte) :
    ReadsBack (.countsRead tag scope index clear) 0x0704#16 tag := by
  have hread : readRequest 0x0704#16 tag (requestBody (.countsRead tag scope index clear)) =
      .request (.countsRead tag scope (fieldBits 16 (requestBody (.countsRead tag scope index clear)) 1) clear) := rfl
  rw [ReadsBack, hread, fieldBits_of_run (v := index) rfl rfl]

theorem byteAt_eq_head (bs : Bytes) (i : Nat) : byteAt bs i = byteAt (bs.drop i) 0 := by
  unfold byteAt
  rw [List.getD_eq_getElem?_getD, List.getD_eq_getElem?_getD, List.getElem?_drop, Nat.add_zero]

theorem sized_of_length {n : Nat} {bs : Bytes} {i : Instr} (h : bs.length = n) : sized n bs i = .request i := if_pos h

theorem toNat_countByte {n : Nat} (h : n ≤ 255) : (BitVec.ofNat 8 n).toNat = n := by
  rw [BitVec.toNat_ofNat, Nat.mod_eq_of_lt (by omega)]

/-- Runs written end to end and taken apart by their count. -/
theorem takeRuns_flatMap {α : Type} {f : α → Bytes} {w : Nat} {xs : List α} (h : ∀ x ∈ xs, (f x).length = w) :
    takeRuns w xs.length (xs.flatMap f) = xs.map f := by
  have hruns := takeRuns_flatten w (xs.map f) (by simpa using h)
  rwa [List.length_map, ← List.flatMap_def] at hruns

theorem readsBack_serviceSet (b : ServiceSetBody) (h : b.labels.length ≤ 255) :
    ReadsBack (.serviceSet tag b) 0x0206#16 tag := by
  have hcount : (byteAt (requestBody (.serviceSet tag b)) 4).toNat = b.labels.length := toNat_countByte h
  have hlabels : (takeRuns 2 b.labels.length (b.labels.flatMap bitsBytes)).map (fun r => fieldBits 16 r 0) = b.labels := by
    rw [takeRuns_flatMap (w := 2) (fun l _ => bitsBytes_length l), List.map_map]
    exact (List.map_congr_left fun l _ => fieldBits_bits (v := l) rfl).trans (List.map_id _)
  have hread : readRequest 0x0206#16 tag (requestBody (.serviceSet tag b)) =
      sized (5 + 2 * (byteAt (requestBody (.serviceSet tag b)) 4).toNat) (requestBody (.serviceSet tag b))
        (.serviceSet tag { b with
          number := fieldBits 16 (requestBody (.serviceSet tag b)) 2
          labels := (takeRuns 2 (byteAt (requestBody (.serviceSet tag b)) 4).toNat
            (b.labels.flatMap bitsBytes)).map (fun r => fieldBits 16 r 0) }) := rfl
  rw [ReadsBack, hread, hcount, hlabels, fieldBits_of_run (v := b.number) rfl rfl, sized_of_length]
  have hlen := Laws.length_flatMap_of_runs (fun l : BitVec 16 => bitsBytes l) 2 b.labels fun l _ => bitsBytes_length l
  simp only [requestBody, List.length_append, List.length_cons, List.length_nil, bitsBytes_length, hlen]
  omega

theorem readRecordBody_bytes {r : RecordBody} : readRecordBody (RecordBody.bytes r) = r := by
  have hread : readRecordBody (RecordBody.bytes r) = { r with due := fieldBits 24 (RecordBody.bytes r) 1 } := rfl
  rw [hread, fieldBits_of_run (v := r.due) rfl rfl]

theorem readsBack_clipWrite (clip : Byte) (first : BitVec 32) (records : List RecordBody) (hn : records.length ≤ 8)
    (hp : ∀ r ∈ records, r.payload.length = 180) : ReadsBack (.clipWrite tag clip first records) 0x0502#16 tag := by
  have hcount : (byteAt (requestBody (.clipWrite tag clip first records)) 5).toNat = records.length :=
    toNat_countByte (by omega)
  have hsize : ∀ r ∈ records, (RecordBody.bytes r).length = 185 := fun r hr => by
    simp [RecordBody.bytes, bitsBytes_length, hp r hr]
  have hrecords : (takeRuns 185 records.length (records.flatMap RecordBody.bytes)).map readRecordBody = records := by
    rw [takeRuns_flatMap hsize, List.map_map]
    exact (List.map_congr_left fun r _ => readRecordBody_bytes).trans (List.map_id _)
  have hread : readRequest 0x0502#16 tag (requestBody (.clipWrite tag clip first records)) =
      sized (6 + 185 * (byteAt (requestBody (.clipWrite tag clip first records)) 5).toNat)
        (requestBody (.clipWrite tag clip first records))
        (.clipWrite tag clip (fieldBits 32 (requestBody (.clipWrite tag clip first records)) 1)
          ((takeRuns 185 (byteAt (requestBody (.clipWrite tag clip first records)) 5).toNat
            (records.flatMap RecordBody.bytes)).map readRecordBody)) := rfl
  rw [ReadsBack, hread, hcount, hrecords, fieldBits_of_run (v := first) rfl rfl, sized_of_length]
  have hlen := Laws.length_flatMap_of_runs RecordBody.bytes 185 records hsize
  simp only [requestBody, List.length_append, List.length_cons, List.length_nil, bitsBytes_length, hlen]
  omega

theorem readsBack_reelSet (reel : Byte) (steps : List StepBody) (hn : steps.length ≤ 255) :
    ReadsBack (.reelSet tag reel steps) 0x0506#16 tag := by
  have hcount : (byteAt (requestBody (.reelSet tag reel steps)) 1).toNat = steps.length := toNat_countByte hn
  have hsteps : (takeRuns 3 steps.length (steps.flatMap StepBody.bytes)).map readStepBody = steps := by
    rw [takeRuns_flatMap (f := StepBody.bytes) (w := 3) (fun _ _ => rfl), List.map_map]
    exact List.map_id _
  have hread : readRequest 0x0506#16 tag (requestBody (.reelSet tag reel steps)) =
      sized (2 + 3 * (byteAt (requestBody (.reelSet tag reel steps)) 1).toNat) (requestBody (.reelSet tag reel steps))
        (.reelSet tag reel ((takeRuns 3 (byteAt (requestBody (.reelSet tag reel steps)) 1).toNat
          (steps.flatMap StepBody.bytes)).map readStepBody)) := rfl
  rw [ReadsBack, hread, hcount, hsteps, sized_of_length]
  have hlen := Laws.length_flatMap_of_runs StepBody.bytes 3 steps fun _ _ => rfl
  simp only [requestBody, List.length_append, List.length_cons, List.length_nil, hlen]
  omega

theorem readsBack_sitecellSet (cells : List Bytes) (hn : cells.length ≤ 8) (hc : ∀ c ∈ cells, c.length = 184) :
    ReadsBack (.sitecellSet tag cells) 0x0407#16 tag := by
  have hcount : (byteAt (requestBody (.sitecellSet tag cells)) 0).toNat = cells.length := toNat_countByte (by omega)
  have hread : readRequest 0x0407#16 tag (requestBody (.sitecellSet tag cells)) =
      sized (1 + 184 * (byteAt (requestBody (.sitecellSet tag cells)) 0).toNat) (requestBody (.sitecellSet tag cells))
        (.sitecellSet tag (takeRuns 184 (byteAt (requestBody (.sitecellSet tag cells)) 0).toNat cells.flatten)) := rfl
  rw [ReadsBack, hread, hcount, takeRuns_flatten 184 cells hc, sized_of_length]
  have hlen := Laws.length_flatMap_of_runs (fun c : Bytes => c) 184 cells hc
  rw [List.flatMap_id'] at hlen
  simp only [requestBody, List.length_append, List.length_cons, List.length_nil, hlen]
  omega

theorem readsBack_planWrite (b : PlanWriteBody) (h : b.entries.length ≤ 1592) :
    ReadsBack (.planWrite tag b) 0x0403#16 tag := by
  have hcount : fieldNat (requestBody (.planWrite tag b)) 3 2 = b.entries.length :=
    beNat_beBytes_of_lt (k := 2) (by omega)
  have hdrop : (requestBody (.planWrite tag b)).drop 5 = b.entries ++ ([b.lengthPresent] ++ bitsBytes b.length) := by
    show b.entries ++ [b.lengthPresent] ++ bitsBytes b.length = _
    rw [List.append_assoc]
  have hread : readRequest 0x0403#16 tag (requestBody (.planWrite tag b)) =
      sized (8 + fieldNat (requestBody (.planWrite tag b)) 3 2) (requestBody (.planWrite tag b)) (.planWrite tag { b with
        first := fieldBits 16 (requestBody (.planWrite tag b)) 1
        entries := ((requestBody (.planWrite tag b)).drop 5).take (fieldNat (requestBody (.planWrite tag b)) 3 2)
        lengthPresent := byteAt (requestBody (.planWrite tag b)) (5 + fieldNat (requestBody (.planWrite tag b)) 3 2)
        length := fieldBits 16 (requestBody (.planWrite tag b)) (6 + fieldNat (requestBody (.planWrite tag b)) 3 2) }) := rfl
  have hafter : (requestBody (.planWrite tag b)).drop (5 + b.entries.length) = [b.lengthPresent] ++ bitsBytes b.length := by
    rw [← List.drop_drop, hdrop, List.drop_left]
  have hflag : byteAt (requestBody (.planWrite tag b)) (5 + b.entries.length) = b.lengthPresent := by
    rw [byteAt_eq_head, hafter]
    rfl
  have hlength : ((requestBody (.planWrite tag b)).drop (6 + b.entries.length)).take 2 = bitsBytes b.length := by
    rw [show 6 + b.entries.length = 5 + b.entries.length + 1 by omega, ← List.drop_drop, hafter]
    rfl
  rw [ReadsBack, hread, hcount, hdrop, List.take_left, hflag, fieldBits_of_run (v := b.first) rfl rfl,
    fieldBits_of_run (v := b.length) rfl hlength, sized_of_length]
  simp only [requestBody, List.length_append, List.length_cons, List.length_nil, bitsBytes_length, beBytes_length]
  omega

end

/-- Settles O50: every request by its own fields. -/
theorem requestRoundTrip : Obligations.RequestRoundTrip := by
  unfold Obligations.RequestRoundTrip
  intro i kind tag hw hk
  cases i
  case timeConfig tag b => cases hk; exact readsBack_timeConfig tag b
  case timeSet tag second => cases hk; exact readsBack_timeSet tag second
  case originSet tag index valid originId links => cases hk; exact readsBack_originSet tag index valid originId links
  case streamSet tag b => cases hk; exact readsBack_streamSet tag b
  case streamClear tag index => cases hk; exact readsBack_streamClear tag index
  case streamRead tag index => cases hk; exact readsBack_streamRead tag index
  case serviceSet tag b => cases hk; exact readsBack_serviceSet tag b (by simpa [Instr.wellFormed] using hw)
  case siteConfig tag b => cases hk; exact readsBack_siteConfig tag b
  case planWrite tag b => cases hk; exact readsBack_planWrite tag b (by simpa [Instr.wellFormed] using hw)
  case planSwapRequest tag second => cases hk; exact readsBack_planSwapRequest tag second
  case planRead tag bank first count => cases hk; exact readsBack_planRead tag bank first count
  case sitecellSet tag cells =>
    obtain ⟨hn, hc⟩ : cells.length ≤ 8 ∧ ∀ c ∈ cells, c.length = 184 := by simpa [Instr.wellFormed] using hw
    cases hk
    exact readsBack_sitecellSet tag cells hn hc
  case clipDefine tag b => cases hk; exact readsBack_clipDefine tag b
  case clipWrite tag clip first records =>
    obtain ⟨hn, hp⟩ : records.length ≤ 8 ∧ ∀ r ∈ records, r.payload.length = 180 := by
      simpa [Instr.wellFormed, RecordBody.wellFormed] using hw
    cases hk
    exact readsBack_clipWrite tag clip first records hn hp
  case reelSet tag reel steps => cases hk; exact readsBack_reelSet tag reel steps (by simpa [Instr.wellFormed] using hw)
  case insertArm tag b => cases hk; exact readsBack_insertArm tag b
  case countsRead tag scope index clear => cases hk; exact readsBack_countsRead tag scope index clear
  case timeRead | timeClear | originRead | serviceRead | releaseRead | siteRead | planCancel | sitecellRead | clipClose |
      clipDelete | clipRead | reelRead | insertCancel | insertReturn | insertClear | insertRead | noticeFetch |
      systemIdentify | statusRead | systemRestart =>
    cases hk
    rfl
  all_goals exact nomatch hk

end Sys2Proof.Machine

/-! SUPPORT. A body of its kind's length is the body of the request it is read as (R186, R201). -/

namespace Sys2Proof.Machine

/-! ## A body read and written again -/

/-- How the body of a kind is read: its length, the request it is read as, and that this request has this body. -/
def WritesBack (kind tag : BitVec 16) (bs : Bytes) (n : Nat) (i : Instr) : Prop :=
  requestLength kind bs = some n ∧ readRequest kind tag bs = sized n bs i ∧ requestKind i = some (kind, tag) ∧
    (bs.length = n → requestBody i = bs)

section

variable (tag : BitVec 16) (bs : Bytes)

/-- A kind without a body. -/
theorem no_bytes {bs : Bytes} (h : bs.length = 0) : [] = bs := (List.length_eq_zero_iff.mp h).symm

/-- A kind with a body of one byte. -/
theorem one_byte {bs : Bytes} (h : bs.length = 1) : [byteAt bs 0] = bs := by
  obtain ⟨f, rfl⟩ := exists_bytes h
  rfl

theorem writesBack_timeConfig : ∃ i, WritesBack 0x0101#16 tag bs 11 i := by
  refine ⟨_, rfl, rfl, rfl, fun h => ?_⟩
  obtain ⟨f, rfl⟩ := exists_bytes h
  dsimp only [requestBody]
  rw [bitsBytes_fieldBits rfl (by omega), bitsBytes_fieldBits rfl (by omega)]
  rfl

theorem writesBack_timeSet : ∃ i, WritesBack 0x0102#16 tag bs 4 i := by
  refine ⟨_, rfl, rfl, rfl, fun h => ?_⟩
  obtain ⟨f, rfl⟩ := exists_bytes h
  dsimp only [requestBody]
  rw [bitsBytes_fieldBits rfl (by omega)]
  rfl

theorem writesBack_originSet : ∃ i, WritesBack 0x0201#16 tag bs 7 i := by
  refine ⟨_, rfl, rfl, rfl, fun h => ?_⟩
  obtain ⟨f, rfl⟩ := exists_bytes h
  dsimp only [requestBody]
  rw [bitsBytes_fieldBits rfl (by omega)]
  rfl

theorem writesBack_streamSet : ∃ i, WritesBack 0x0203#16 tag bs 7 i := by
  refine ⟨_, rfl, rfl, rfl, fun h => ?_⟩
  obtain ⟨f, rfl⟩ := exists_bytes h
  dsimp only [requestBody]
  rw [bitsBytes_fieldBits rfl (by omega), bitsBytes_fieldBits rfl (by omega)]
  rfl

theorem writesBack_streamClear : ∃ i, WritesBack 0x0204#16 tag bs 2 i := by
  refine ⟨_, rfl, rfl, rfl, fun h => ?_⟩
  obtain ⟨f, rfl⟩ := exists_bytes h
  dsimp only [requestBody]
  rw [bitsBytes_fieldBits rfl (by omega)]
  rfl

theorem writesBack_streamRead : ∃ i, WritesBack 0x0205#16 tag bs 2 i := by
  refine ⟨_, rfl, rfl, rfl, fun h => ?_⟩
  obtain ⟨f, rfl⟩ := exists_bytes h
  dsimp only [requestBody]
  rw [bitsBytes_fieldBits rfl (by omega)]
  rfl

theorem writesBack_siteConfig : ∃ i, WritesBack 0x0401#16 tag bs 27 i := by
  refine ⟨_, rfl, rfl, rfl, fun h => ?_⟩
  obtain ⟨f, rfl⟩ := exists_bytes h
  dsimp only [requestBody]
  rw [bitsBytes_fieldBits rfl (by omega), bitsBytes_fieldBits rfl (by omega), bitsBytes_fieldBits rfl (by omega),
    bitsBytes_fieldBits rfl (by omega), bitsBytes_fieldBits rfl (by omega), bitsBytes_fieldBits rfl (by omega),
    bitsBytes_fieldBits rfl (by omega)]
  rfl

theorem writesBack_planSwapRequest : ∃ i, WritesBack 0x0404#16 tag bs 4 i := by
  refine ⟨_, rfl, rfl, rfl, fun h => ?_⟩
  obtain ⟨f, rfl⟩ := exists_bytes h
  dsimp only [requestBody]
  rw [bitsBytes_fieldBits rfl (by omega)]
  rfl

theorem writesBack_planRead : ∃ i, WritesBack 0x0406#16 tag bs 5 i := by
  refine ⟨_, rfl, rfl, rfl, fun h => ?_⟩
  obtain ⟨f, rfl⟩ := exists_bytes h
  dsimp only [requestBody]
  rw [bitsBytes_fieldBits rfl (by omega), bitsBytes_fieldBits rfl (by omega)]
  rfl

theorem writesBack_clipDefine : ∃ i, WritesBack 0x0501#16 tag bs 21 i := by
  refine ⟨_, rfl, rfl, rfl, fun h => ?_⟩
  obtain ⟨f, rfl⟩ := exists_bytes h
  dsimp only [requestBody]
  rw [bitsBytes_fieldBits rfl (by omega), bitsBytes_fieldBits rfl (by omega), bitsBytes_fieldBits rfl (by omega),
    bitsBytes_fieldBits rfl (by omega), bitsBytes_fieldBits rfl (by omega)]
  rfl

theorem writesBack_insertArm : ∃ i, WritesBack 0x0601#16 tag bs 24 i := by
  refine ⟨_, rfl, rfl, rfl, fun h => ?_⟩
  obtain ⟨f, rfl⟩ := exists_bytes h
  dsimp only [requestBody]
  rw [bitsBytes_fieldBits rfl (by omega), bitsBytes_fieldBits rfl (by omega), bitsBytes_fieldBits rfl (by omega),
    bitsBytes_fieldBits rfl (by omega), bitsBytes_fieldBits rfl (by omega)]
  rfl

theorem writesBack_countsRead : ∃ i, WritesBack 0x0704#16 tag bs 4 i := by
  refine ⟨_, rfl, rfl, rfl, fun h => ?_⟩
  obtain ⟨f, rfl⟩ := exists_bytes h
  dsimp only [requestBody]
  rw [bitsBytes_fieldBits rfl (by omega)]
  rfl

/-- The runs that follow a count, and their number. -/
theorem runs_written {w start n : Nat} (h : bs.length = start + w * n) :
    (takeRuns w n (bs.drop start)).flatten = bs.drop start ∧ ∀ r ∈ takeRuns w n (bs.drop start), r.length = w :=
  flatten_takeRuns (by rw [List.length_drop, h]; omega)

theorem countByte_eq {n : Nat} (b : Byte) (h : n = b.toNat) : BitVec.ofNat 8 n = b := by
  rw [h, BitVec.ofNat_toNat, BitVec.setWidth_eq]

theorem fieldNat_one (i : Nat) : fieldNat bs i 1 = (byteAt bs i).toNat := by
  unfold fieldNat byteAt
  rw [List.getD_eq_getElem?_getD]
  cases h : bs[i]? with
  | none =>
    rw [List.drop_eq_nil_of_le (List.getElem?_eq_none_iff.mp h)]
    rfl
  | some b =>
    obtain ⟨hlt, hb⟩ := List.getElem?_eq_some_iff.mp h
    rw [List.drop_eq_getElem_cons hlt, hb]
    exact Nat.zero_add _

theorem byteAt_cons_drop {i : Nat} (h : i < bs.length) : byteAt bs i :: bs.drop (i + 1) = bs.drop i := by
  rw [List.drop_eq_getElem_cons h]
  unfold byteAt
  rw [List.getD_eq_getElem _ _ h]

/-- Runs that are each written as they were read. -/
theorem flatMap_map_runs {α : Type} {read : Bytes → α} {write : α → Bytes} {runs : List Bytes}
    (h : ∀ r ∈ runs, write (read r) = r) : (runs.map read).flatMap write = runs.flatten := by
  rw [List.flatMap_def, List.map_map]
  exact congrArg List.flatten ((List.map_congr_left h).trans (List.map_id _))

theorem writesBack_serviceSet : ∃ i, WritesBack 0x0206#16 tag bs (5 + 2 * (byteAt bs 4).toNat) i := by
  refine ⟨_, congrArg (fun c => some (5 + 2 * c)) (fieldNat_one bs 4), rfl, rfl, fun h => ?_⟩
  obtain ⟨hflat, hruns⟩ := runs_written bs h
  obtain ⟨f, hf⟩ := exists_head (bs := bs) (n := 5) (by omega)
  dsimp only [requestBody]
  rw [countByte_eq (byteAt bs 4) (by rw [List.length_map, takeRuns_length]), flatMap_map_runs fun r hr => (by
    rw [bitsBytes_fieldBits rfl (by rw [hruns r hr]), List.drop_zero, List.take_of_length_le (hruns r hr).le]),
    hflat, bitsBytes_fieldBits rfl (by omega)]
  clear hflat hruns h
  generalize bs.drop 5 = rest at hf ⊢
  subst hf
  rfl

theorem writesBack_planWrite : ∃ i, WritesBack 0x0403#16 tag bs (8 + fieldNat bs 3 2) i := by
  refine ⟨_, rfl, rfl, rfl, fun h => ?_⟩
  have hcount : beBytes 2 (fieldNat bs 3 2) = (bs.drop 3).take 2 := by
    have hrun := beBytes_beNat ((bs.drop 3).take 2)
    rwa [List.length_take, List.length_drop, min_eq_left (by omega)] at hrun
  have hentries : ((bs.drop 5).take (fieldNat bs 3 2)).length = fieldNat bs 3 2 := by
    rw [List.length_take, List.length_drop]
    omega
  have htail : (bs.drop 5).take (fieldNat bs 3 2) ++ ([byteAt bs (5 + fieldNat bs 3 2)] ++
      (bs.drop (6 + fieldNat bs 3 2)).take 2) = bs.drop 5 := by
    have hlast : (bs.drop (6 + fieldNat bs 3 2)).take 2 = bs.drop (5 + fieldNat bs 3 2 + 1) := by
      rw [List.take_of_length_le (by rw [List.length_drop]; omega)]
      exact congrArg (fun m => List.drop m bs) (by omega)
    rw [hlast, List.singleton_append, byteAt_cons_drop bs (by omega), ← List.drop_drop, List.take_append_drop]
  obtain ⟨f, hf⟩ := exists_head (bs := bs) (n := 5) (by omega)
  dsimp only [requestBody]
  rw [hentries, hcount, bitsBytes_fieldBits (start := 6 + _) rfl (by omega), bitsBytes_fieldBits rfl (by omega),
    List.append_assoc, List.append_assoc, htail]
  clear htail hentries hcount h
  generalize bs.drop 5 = rest at hf ⊢
  subst hf
  rfl

theorem writesBack_sitecellSet : ∃ i, WritesBack 0x0407#16 tag bs (1 + 184 * (byteAt bs 0).toNat) i := by
  refine ⟨_, congrArg (fun c => some (1 + 184 * c)) (fieldNat_one bs 0), rfl, rfl, fun h => ?_⟩
  dsimp only [requestBody]
  rw [countByte_eq (byteAt bs 0) (takeRuns_length _ _ _), (runs_written bs h).1, List.singleton_append,
    byteAt_cons_drop bs (by omega), List.drop_zero]

theorem recordBytes_readRecordBody {run : Bytes} (h : run.length = 185) :
    RecordBody.bytes (readRecordBody run) = run := by
  obtain ⟨f, hf⟩ := exists_head (bs := run) (n := 5) (by omega)
  unfold RecordBody.bytes readRecordBody
  rw [bitsBytes_fieldBits rfl (by omega)]
  clear h
  generalize run.drop 5 = rest at hf ⊢
  subst hf
  rfl

theorem writesBack_clipWrite : ∃ i, WritesBack 0x0502#16 tag bs (6 + 185 * (byteAt bs 5).toNat) i := by
  refine ⟨_, congrArg (fun c => some (6 + 185 * c)) (fieldNat_one bs 5), rfl, rfl, fun h => ?_⟩
  obtain ⟨hflat, hruns⟩ := runs_written bs h
  obtain ⟨f, hf⟩ := exists_head (bs := bs) (n := 6) (by omega)
  dsimp only [requestBody]
  rw [countByte_eq (byteAt bs 5) (by rw [List.length_map, takeRuns_length]),
    flatMap_map_runs fun r hr => recordBytes_readRecordBody (hruns r hr), hflat, bitsBytes_fieldBits rfl (by omega)]
  clear hflat hruns h
  generalize bs.drop 6 = rest at hf ⊢
  subst hf
  rfl

theorem writesBack_reelSet : ∃ i, WritesBack 0x0506#16 tag bs (2 + 3 * (byteAt bs 1).toNat) i := by
  refine ⟨_, congrArg (fun c => some (2 + 3 * c)) (fieldNat_one bs 1), rfl, rfl, fun h => ?_⟩
  obtain ⟨hflat, hruns⟩ := runs_written bs h
  obtain ⟨f, hf⟩ := exists_head (bs := bs) (n := 2) (by omega)
  have hstep : ∀ r ∈ takeRuns 3 (byteAt bs 1).toNat (bs.drop 2), StepBody.bytes (readStepBody r) = r := fun r hr => by
    obtain ⟨g, hg⟩ := exists_bytes (hruns r hr)
    rw [hg]
    rfl
  dsimp only [requestBody]
  rw [countByte_eq (byteAt bs 1) (by rw [List.length_map, takeRuns_length]), flatMap_map_runs hstep, hflat]
  clear hflat hruns hstep h
  generalize bs.drop 2 = rest at hf ⊢
  subst hf
  rfl

end

end Sys2Proof.Machine

/-! SUPPORT. Frames taken as requests (R181 to R186). -/

namespace Sys2Proof.Machine

/-! ## The kinds of requests (R186) -/

/-- The kinds of requests that the part has (12, Request kinds). -/
def requestKinds : List (BitVec 16) :=
  [0x0101#16, 0x0102#16, 0x0103#16, 0x0104#16, 0x0201#16, 0x0202#16, 0x0203#16, 0x0204#16, 0x0205#16, 0x0206#16,
    0x0207#16, 0x0301#16, 0x0401#16, 0x0402#16, 0x0403#16, 0x0404#16, 0x0405#16, 0x0406#16, 0x0407#16, 0x0408#16,
    0x0501#16, 0x0502#16, 0x0503#16, 0x0504#16, 0x0505#16, 0x0506#16, 0x0507#16, 0x0601#16, 0x0602#16, 0x0603#16,
    0x0604#16, 0x0605#16, 0x0701#16, 0x0702#16, 0x0703#16, 0x0704#16, 0x0705#16]

section

variable {kind : BitVec 16} (tag : BitVec 16) (bs : Bytes)

/-- A kind that the part has is read as a request with a body of its length. -/
theorem writesBack_of_known (h : kind ∈ requestKinds) : ∃ n i, WritesBack kind tag bs n i := by
  unfold requestKinds at h
  simp only [List.mem_cons, List.not_mem_nil, or_false] at h
  rcases h with rfl | rfl | rfl | rfl | rfl | rfl | rfl | rfl | rfl | rfl | rfl | rfl | rfl | rfl | rfl | rfl | rfl |
    rfl | rfl | rfl | rfl | rfl | rfl | rfl | rfl | rfl | rfl | rfl | rfl | rfl | rfl | rfl | rfl | rfl | rfl | rfl |
    rfl
  · exact ⟨_, writesBack_timeConfig tag bs⟩
  · exact ⟨_, writesBack_timeSet tag bs⟩
  · exact ⟨0, _, rfl, rfl, rfl, no_bytes⟩
  · exact ⟨1, _, rfl, rfl, rfl, one_byte⟩
  · exact ⟨_, writesBack_originSet tag bs⟩
  · exact ⟨1, _, rfl, rfl, rfl, one_byte⟩
  · exact ⟨_, writesBack_streamSet tag bs⟩
  · exact ⟨_, writesBack_streamClear tag bs⟩
  · exact ⟨_, writesBack_streamRead tag bs⟩
  · exact ⟨_, writesBack_serviceSet tag bs⟩
  · exact ⟨1, _, rfl, rfl, rfl, one_byte⟩
  · exact ⟨0, _, rfl, rfl, rfl, no_bytes⟩
  · exact ⟨_, writesBack_siteConfig tag bs⟩
  · exact ⟨0, _, rfl, rfl, rfl, no_bytes⟩
  · exact ⟨_, writesBack_planWrite tag bs⟩
  · exact ⟨_, writesBack_planSwapRequest tag bs⟩
  · exact ⟨0, _, rfl, rfl, rfl, no_bytes⟩
  · exact ⟨_, writesBack_planRead tag bs⟩
  · exact ⟨_, writesBack_sitecellSet tag bs⟩
  · exact ⟨0, _, rfl, rfl, rfl, no_bytes⟩
  · exact ⟨_, writesBack_clipDefine tag bs⟩
  · exact ⟨_, writesBack_clipWrite tag bs⟩
  · exact ⟨1, _, rfl, rfl, rfl, one_byte⟩
  · exact ⟨1, _, rfl, rfl, rfl, one_byte⟩
  · exact ⟨1, _, rfl, rfl, rfl, one_byte⟩
  · exact ⟨_, writesBack_reelSet tag bs⟩
  · exact ⟨1, _, rfl, rfl, rfl, one_byte⟩
  · exact ⟨_, writesBack_insertArm tag bs⟩
  · exact ⟨1, _, rfl, rfl, rfl, one_byte⟩
  · exact ⟨1, _, rfl, rfl, rfl, one_byte⟩
  · exact ⟨1, _, rfl, rfl, rfl, one_byte⟩
  · exact ⟨1, _, rfl, rfl, rfl, one_byte⟩
  · exact ⟨0, _, rfl, rfl, rfl, no_bytes⟩
  · exact ⟨0, _, rfl, rfl, rfl, no_bytes⟩
  · exact ⟨0, _, rfl, rfl, rfl, no_bytes⟩
  · exact ⟨_, writesBack_countsRead tag bs⟩
  · exact ⟨0, _, rfl, rfl, rfl, no_bytes⟩

theorem requestLength_unknown (h : kind ∉ requestKinds) : requestLength kind bs = none := by
  have hno : ∀ n : Nat, BitVec.ofNat 16 n ∈ requestKinds → kind.toNat ≠ n := fun n hn hk => h (by
    rwa [← hk, BitVec.ofNat_toNat, BitVec.setWidth_eq] at hn)
  unfold requestLength
  dsimp only
  split
  case h_38 => rfl
  all_goals exact absurd ‹kind.toNat = _› (hno _ (by decide))

theorem readRequest_unknown (h : kind ∉ requestKinds) : readRequest kind tag bs = .unknown := by
  unfold requestKinds at h
  simp only [List.mem_cons, List.not_mem_nil, or_false, not_or] at h
  simp only [readRequest, h, if_false]

end

end Sys2Proof.Machine

/-! SUPPORT. A frame's last byte, and a whole frame shifted in (R181 to R186). -/

namespace Sys2Proof.Machine

section

variable {s : State} {b c : Byte} {header body held bs : Bytes} {kind tag : BitVec 16} {i : Instr}

/-! ## A complete frame (R183 to R186) -/

theorem State.receiveByte_crcFirst (h : s.control.receiver = .crc header body []) :
    s.receiveByte b = s.setReceiver (.crc header body [b]) := by
  unfold State.receiveByte
  rw [h]

theorem State.receiveByte_crcLast (h : s.control.receiver = .crc header body [c]) :
    s.receiveByte b = (s.setReceiver .hunt).checkFrame header body [c, b] := by
  unfold State.receiveByte
  rw [h]
  rfl

theorem beNat_pair (c b : Byte) : beNat [c, b] = c.toNat * 256 + b.toNat := headerLength_pair c b

theorem State.checkFrame_fails (h : (crc16 (header ++ body)).toNat ≠ c.toNat * 256 + b.toNat) :
    s.checkFrame header body [c, b] = s.discardCrc := if_neg (by rw [beNat_pair]; exact h)

theorem State.checkFrame_passes (h : (crc16 (header ++ body)).toNat = c.toNat * 256 + b.toNat) :
    s.checkFrame header body [c, b] = s.takeFrame header body := if_pos (by rw [beNat_pair]; exact h)

theorem State.takeFrame_busy (h : s.control.reply ≠ .none) : s.takeFrame header body = s.discardBusy := if_neg h

theorem State.takeFrame_takes (h : s.control.reply = .none) : s.takeFrame header body = { s with control := { s.control with
    reply := taken (BitVec.ofNat 16 (fieldNat header 2 2)) (BitVec.ofNat 16 (fieldNat header 4 2))
      (readRequest (BitVec.ofNat 16 (fieldNat header 2 2)) (BitVec.ofNat 16 (fieldNat header 4 2)) body) } } := if_pos h

theorem exec_completeFrame (hs : s.control.selected = true) (hr : s.control.receiver = .crc header body [c]) :
    exec (.completeFrame b) s = .next ((s.setReceiver .hunt).checkFrame header body [c, b]).shiftOutByte := by
  have hdue : (s.control.selected && s.control.lastInDue) = true := by
    rw [hs, ControlLink.lastInDue, hr]
    rfl
  rw [← State.receiveByte_crcLast hr]
  exact congrArg Host.Outcome.next (if_pos hdue)

/-! ## The bytes of a frame shifted in (R181, R182) -/

/-- The bytes of a run shifted in, one after the other. -/
def State.receiveBytes (bs : Bytes) (s : State) : State := bs.foldl (fun (x : State) b => x.receiveByte b) s

theorem State.receiveBytes_append (as bs : Bytes) (s : State) :
    s.receiveBytes (as ++ bs) = (s.receiveBytes as).receiveBytes bs := List.foldl_append

theorem State.setReceiver_receiveByte_header (h : ¬(held.length + 1 = 2 ∧ 1600 < headerLength (held ++ [b]))) :
    (s.setReceiver (.header held)).receiveByte b =
      if held.length + 1 < 6 then s.setReceiver (.header (held ++ [b])) else s.setReceiver (afterHeader (held ++ [b])) := by
  have hlen : (held ++ [b]).length = held.length + 1 := by rw [List.length_append, List.length_singleton]
  rw [State.receiveByte_header rfl]
  unfold State.headerByte
  dsimp only
  rw [hlen]
  exact if_neg h

/-- The six bytes of a header whose length is within R182. -/
theorem State.receiveBytes_header {a0 a1 a2 a3 a4 a5 : Byte} (h : a0.toNat * 256 + a1.toNat ≤ 1600) :
    (s.setReceiver (.header [])).receiveBytes [a0, a1, a2, a3, a4, a5] =
      s.setReceiver (afterHeader [a0, a1, a2, a3, a4, a5]) := by
  have hmore (held : Bytes) (b : Byte) (h : ¬(held.length + 1 = 2 ∧ 1600 < headerLength (held ++ [b])))
      (hlt : held.length + 1 < 6) :
      (s.setReceiver (.header held)).receiveByte b = s.setReceiver (.header (held ++ [b])) :=
    (State.setReceiver_receiveByte_header h).trans (if_pos hlt)
  have h0 : (s.setReceiver (.header [])).receiveByte a0 = s.setReceiver (.header [a0]) :=
    hmore [] a0 (fun hand => absurd hand.1 (by decide)) (by decide)
  have h1 : (s.setReceiver (.header [a0])).receiveByte a1 = s.setReceiver (.header [a0, a1]) :=
    hmore [a0] a1 (fun hand => absurd hand.2 (not_lt.mpr ((headerLength_pair a0 a1).trans_le h))) (by decide : 1 + 1 < 6)
  have h2 : (s.setReceiver (.header [a0, a1])).receiveByte a2 = s.setReceiver (.header [a0, a1, a2]) :=
    hmore [a0, a1] a2 (fun hand => absurd hand.1 (by decide : ¬2 + 1 = 2)) (by decide : 2 + 1 < 6)
  have h3 : (s.setReceiver (.header [a0, a1, a2])).receiveByte a3 = s.setReceiver (.header [a0, a1, a2, a3]) :=
    hmore [a0, a1, a2] a3 (fun hand => absurd hand.1 (by decide : ¬3 + 1 = 2)) (by decide : 3 + 1 < 6)
  have h4 : (s.setReceiver (.header [a0, a1, a2, a3])).receiveByte a4 = s.setReceiver (.header [a0, a1, a2, a3, a4]) :=
    hmore [a0, a1, a2, a3] a4 (fun hand => absurd hand.1 (by decide : ¬4 + 1 = 2)) (by decide : 4 + 1 < 6)
  show (((((((s.setReceiver (.header [])).receiveByte a0).receiveByte a1).receiveByte a2).receiveByte a3).receiveByte
    a4).receiveByte a5) = _
  rw [h0, h1, h2, h3, h4]
  exact State.setReceiver_receiveByte_header (held := [a0, a1, a2, a3, a4])
    (fun hand => absurd hand.1 (by decide : ¬5 + 1 = 2))

theorem State.receiveBytes_body (hb : bs ≠ []) (h : held.length + bs.length = headerLength header) :
    (s.setReceiver (.body header held)).receiveBytes bs = s.setReceiver (.crc header (held ++ bs) []) := by
  induction bs generalizing held with
  | nil => exact absurd rfl hb
  | cons b bs ih =>
    have hlen : (held ++ [b]).length = held.length + 1 := by rw [List.length_append, List.length_singleton]
    have hstep : (s.setReceiver (.body header held)).receiveByte b =
        if (held ++ [b]).length < headerLength header then s.setReceiver (.body header (held ++ [b]))
        else s.setReceiver (.crc header (held ++ [b]) []) := rfl
    show ((s.setReceiver (.body header held)).receiveByte b).receiveBytes bs = _
    rw [List.length_cons] at h
    rw [hstep]
    by_cases hbs : bs = []
    · subst hbs
      rw [List.length_nil] at h
      exact if_neg (by omega)
    · have hpos : 0 < bs.length := List.length_pos_iff.mpr hbs
      rw [if_pos (by omega), ih hbs (by omega), List.append_assoc]
      rfl

/-- The body of a frame, from its header on. -/
theorem State.receiveBytes_afterHeader (h : body.length = headerLength header) :
    (s.setReceiver (afterHeader header)).receiveBytes body = s.setReceiver (.crc header body []) := by
  unfold afterHeader
  by_cases h0 : headerLength header = 0
  · rw [if_pos h0]
    obtain rfl : body = [] := List.length_eq_zero_iff.mp (h.trans h0)
    rfl
  · rw [if_neg h0, State.receiveBytes_body (fun hnil => h0 (by rw [← h, hnil]; rfl)) (by rw [List.length_nil, Nat.zero_add, h])]
    rfl

/-! ## A whole frame -/

/-- The header of a frame (12, section 12.4). -/
def frameHeader (kind tag : BitVec 16) (n : Nat) : Bytes := beBytes 2 n ++ beBytes 2 kind.toNat ++ beBytes 2 tag.toNat

theorem frameOf_eq (kind tag : BitVec 16) (body : Bytes) : frameOf kind tag body = [0xB3, 0x5D] ++
    frameHeader kind tag body.length ++ body ++ beBytes 2 (crc16 (frameHeader kind tag body.length ++ body)).toNat := by
  unfold frameOf frameHeader
  simp only [List.append_assoc]

theorem headerLength_frameHeader {n : Nat} (h : n ≤ 1600) : headerLength (frameHeader kind tag n) = n := by
  show beNat (beBytes 2 n) = n
  exact beNat_beBytes_of_lt (h.trans_lt (by norm_num))

theorem frameHeader_kind (n : Nat) : BitVec.ofNat 16 (fieldNat (frameHeader kind tag n) 2 2) = kind :=
  fieldBits_of_run (w := 16) (v := kind) rfl rfl

theorem frameHeader_tag (n : Nat) : BitVec.ofNat 16 (fieldNat (frameHeader kind tag n) 4 2) = tag :=
  fieldBits_of_run (w := 16) (v := tag) rfl rfl

theorem State.receiveBytes_sync (hr : s.control.receiver = .hunt) :
    s.receiveBytes [0xB3, 0x5D] = s.setReceiver (.header []) := by
  show (s.receiveByte 0xB3).receiveByte 0x5D = _
  rw [State.receiveByte_hunt hr]
  exact State.receiveByte_sync rfl rfl

theorem State.receiveBytes_frameHeader {n : Nat} (h : n ≤ 1600) :
    (s.setReceiver (.header [])).receiveBytes (frameHeader kind tag n) =
      s.setReceiver (afterHeader (frameHeader kind tag n)) := by
  refine State.receiveBytes_header ?_
  rw [← headerLength_pair]
  exact (headerLength_frameHeader (kind := kind) (tag := tag) h).trans_le h

theorem State.receiveBytes_crc (v : BitVec 16) (h : crc16 (header ++ body) = v) :
    (s.setReceiver (.crc header body [])).receiveBytes (beBytes 2 v.toNat) =
      (s.setReceiver .hunt).takeFrame header body := by
  have hpair : (crc16 (header ++ body)).toNat =
      (BitVec.ofNat 8 (v.toNat / 256 ^ 1)).toNat * 256 + (BitVec.ofNat 8 (v.toNat / 256 ^ 0)).toNat := by
    rw [← beNat_pair, h]
    exact (beNat_beBytes_of_lt (k := 2) (n := v.toNat) v.isLt).symm
  show ((s.setReceiver (.crc header body [])).receiveByte _).receiveByte _ = _
  rw [State.receiveByte_crcFirst (s := s.setReceiver (.crc header body [])) rfl, State.receiveByte_crcLast rfl]
  exact State.checkFrame_passes hpair

end

/-! ## Settled -/

/-- Settles O48: by the CRC, by the outstanding reply, and by what the kind's body is read as. -/
theorem frameCompletes : Obligations.FrameCompletes := by
  unfold Obligations.FrameCompletes
  intro b c header body s hs ho hr
  have hexec := exec_completeFrame (b := b) hs hr
  refine ⟨fun hne => ?_, fun heq hbusy => ?_, fun heq hfree => ?_, fun hnone => ?_, fun n hn hne => ?_, fun hlen => ?_⟩
  · rw [hexec, State.checkFrame_fails hne, State.shiftOutByte_silent (by exact ho)]
    rfl
  · rw [hexec, State.checkFrame_passes heq, State.takeFrame_busy (by exact hbusy), State.shiftOutByte_silent (by exact ho)]
    rfl
  · rw [hexec, State.checkFrame_passes heq, State.takeFrame_takes (by exact hfree), State.shiftOutByte_silent (by exact ho)]
    rfl
  all_goals
    by_cases hk : BitVec.ofNat 16 (fieldNat header 2 2) ∈ requestKinds
  · obtain ⟨n, i, hn, _⟩ := writesBack_of_known (BitVec.ofNat 16 (fieldNat header 4 2)) body hk
    exact nomatch hn.symm.trans hnone
  · rw [readRequest_unknown _ _ hk]
    rfl
  · obtain ⟨m, i, hm, hread, _⟩ := writesBack_of_known (BitVec.ofNat 16 (fieldNat header 4 2)) body hk
    obtain rfl : m = n := Option.some.inj (hm.symm.trans hn)
    rw [hread, sized, if_neg hne]
    rfl
  · exact nomatch (requestLength_unknown body hk).symm.trans hn
  · obtain ⟨m, i, hm, hread, hkind, hbody⟩ := writesBack_of_known (BitVec.ofNat 16 (fieldNat header 4 2)) body hk
    obtain rfl : m = body.length := Option.some.inj (hm.symm.trans hlen)
    exact ⟨i, by rw [hread, sized_of_length rfl]; rfl, hkind, hbody rfl⟩
  · exact nomatch (requestLength_unknown body hk).symm.trans hlen

/-- Every well-formed command's body fits a frame: the laws, one per command, put together. -/
theorem requestBody_fits : ∀ i : Instr, Laws.RequestWords.Statement i
  | .serviceSet tag body => Laws.RequestWords.serviceSet tag body
  | .planWrite tag body => Laws.RequestWords.planWrite tag body
  | .sitecellSet tag cells => Laws.RequestWords.sitecellSet tag cells
  | .clipWrite tag clip first records => Laws.RequestWords.clipWrite tag clip first records
  | .reelSet tag reel steps => Laws.RequestWords.reelSet tag reel steps
  | .powerOnReset => Laws.RequestWords.powerOnReset
  | .secondBoundary => Laws.RequestWords.secondBoundary
  | .holdoverExpired => Laws.RequestWords.holdoverExpired
  | .ppsEdge edge => Laws.RequestWords.ppsEdge edge
  | .referenceLost => Laws.RequestWords.referenceLost
  | .cellArrival link byte => Laws.RequestWords.cellArrival link byte
  | .runt link byte => Laws.RequestWords.runt link byte
  | .overlong link byte => Laws.RequestWords.overlong link byte
  | .linkTimeout link => Laws.RequestWords.linkTimeout link
  | .cellTake link => Laws.RequestWords.cellTake link
  | .releaseComputation => Laws.RequestWords.releaseComputation
  | .timingCell => Laws.RequestWords.timingCell
  | .cueTake => Laws.RequestWords.cueTake
  | .slotBoundary => Laws.RequestWords.slotBoundary
  | .returnLimitExpiry record => Laws.RequestWords.returnLimitExpiry record
  | .transferStart => Laws.RequestWords.transferStart
  | .transferEnd => Laws.RequestWords.transferEnd
  | .syncError byte => Laws.RequestWords.syncError byte
  | .lengthError byte => Laws.RequestWords.lengthError byte
  | .completeFrame byte => Laws.RequestWords.completeFrame byte
  | .replyMadeReady => Laws.RequestWords.replyMadeReady
  | .replyRead byte => Laws.RequestWords.replyRead byte
  | .timeConfig tag body => Laws.RequestWords.timeConfig tag body
  | .timeSet tag second => Laws.RequestWords.timeSet tag second
  | .timeRead tag => Laws.RequestWords.timeRead tag
  | .timeClear tag choice => Laws.RequestWords.timeClear tag choice
  | .originSet tag index valid originId links => Laws.RequestWords.originSet tag index valid originId links
  | .originRead tag index => Laws.RequestWords.originRead tag index
  | .streamSet tag body => Laws.RequestWords.streamSet tag body
  | .streamClear tag index => Laws.RequestWords.streamClear tag index
  | .streamRead tag index => Laws.RequestWords.streamRead tag index
  | .serviceRead tag index => Laws.RequestWords.serviceRead tag index
  | .releaseRead tag => Laws.RequestWords.releaseRead tag
  | .siteConfig tag body => Laws.RequestWords.siteConfig tag body
  | .siteRead tag => Laws.RequestWords.siteRead tag
  | .planSwapRequest tag second => Laws.RequestWords.planSwapRequest tag second
  | .planCancel tag => Laws.RequestWords.planCancel tag
  | .planRead tag bank first count => Laws.RequestWords.planRead tag bank first count
  | .sitecellRead tag => Laws.RequestWords.sitecellRead tag
  | .clipDefine tag body => Laws.RequestWords.clipDefine tag body
  | .clipClose tag clip => Laws.RequestWords.clipClose tag clip
  | .clipDelete tag clip => Laws.RequestWords.clipDelete tag clip
  | .clipRead tag clip => Laws.RequestWords.clipRead tag clip
  | .reelRead tag reel => Laws.RequestWords.reelRead tag reel
  | .insertArm tag body => Laws.RequestWords.insertArm tag body
  | .insertCancel tag record => Laws.RequestWords.insertCancel tag record
  | .insertReturn tag record => Laws.RequestWords.insertReturn tag record
  | .insertClear tag record => Laws.RequestWords.insertClear tag record
  | .insertRead tag record => Laws.RequestWords.insertRead tag record
  | .noticeFetch tag => Laws.RequestWords.noticeFetch tag
  | .systemIdentify tag => Laws.RequestWords.systemIdentify tag
  | .statusRead tag => Laws.RequestWords.statusRead tag
  | .countsRead tag scope index clear => Laws.RequestWords.countsRead tag scope index clear
  | .systemRestart tag => Laws.RequestWords.systemRestart tag
  | .linkByte link startOfCell byte => Laws.RequestWords.linkByte link startOfCell byte
  | .controlLinkByte byte => Laws.RequestWords.controlLinkByte byte

/-- Settles O49: sync, header, body and CRC shifted in one after the other, and the request reads back from its body. -/
theorem requestFrameIsTaken : Obligations.RequestFrameIsTaken := by
  unfold Obligations.RequestFrameIsTaken
  intro i kind tag s hw hk hr hfree
  have hlen : (requestBody i).length ≤ 1600 := requestBody_fits i hw
  show s.receiveBytes (frameOf kind tag (requestBody i)) = _
  rw [frameOf_eq, State.receiveBytes_append, State.receiveBytes_append, State.receiveBytes_append,
    State.receiveBytes_sync hr, State.receiveBytes_frameHeader hlen,
    State.receiveBytes_afterHeader (headerLength_frameHeader hlen).symm, State.receiveBytes_crc _ rfl,
    State.takeFrame_takes (by exact hfree), frameHeader_kind, frameHeader_tag, requestRoundTrip i kind tag hw hk]
  unfold State.setReceiver taken
  dsimp only
  rw [← hr]

end Sys2Proof.Machine

/-! SUPPORT. CLIP.WRITE and REEL.SET: the checks in their order, and what an accepted request writes (R123, R124, R129 to
R131). -/

namespace Sys2Proof.Machine

/-! ## Cell records written in a run (R124) -/

/-- Entries put in a run stand in their order; the others stay. -/
theorem Table.get_putRun {α : Type} (vs : List α) (t : Table α) (k i : Nat) :
    (t.putRun k vs).get i = if k ≤ i ∧ i < k + vs.length then vs[i - k]? else t.get i := by
  induction vs generalizing t k with
  | nil => exact (if_neg (by simp only [List.length_nil]; omega)).symm
  | cons v vs ih =>
    rw [Table.putRun, ih (t.put k v) (k + 1), List.length_cons]
    rcases Nat.lt_trichotomy i k with hlt | rfl | hgt
    · rw [if_neg (by omega), if_neg (by omega), Table.get_put_other _ _ (by omega)]
    · rw [if_neg (by omega), if_pos (by omega), Table.get_put_same, Nat.sub_self]
      rfl
    · rw [Table.get_put_other _ _ (by omega), show i - k = (i - (k + 1)) + 1 by omega, List.getElem?_cons_succ]
      exact if_congr (by omega) rfl rfl

theorem Table.get_putRun_at {α : Type} {vs : List α} (t : Table α) (k : Nat) {i : Nat} {v : α} (h : vs[i]? = some v) :
    (t.putRun k vs).get (k + i) = some v := by
  have hi : i < vs.length := (List.getElem?_eq_some_iff.mp h).1
  rw [Table.get_putRun, if_pos (by omega), Nat.add_sub_cancel_left, h]

theorem Table.get_putRun_outside {α : Type} (vs : List α) (t : Table α) {k i : Nat}
    (h : i < k ∨ k + vs.length ≤ i) : (t.putRun k vs).get i = t.get i :=
  (Table.get_putRun vs t k i).trans (if_neg (by omega))

theorem State.clipRecord_stored {s : State} {n : Nat} {r : ClipRecord} (h : s.clipCells.get n = some r) :
    s.clipRecord n = r := by
  unfold State.clipRecord
  rw [h]

theorem State.clipRecord_congr {s t : State} {n : Nat} (h : t.clipCells.get n = s.clipCells.get n) :
    t.clipRecord n = s.clipRecord n := by
  unfold State.clipRecord
  rw [h]

/-! ## The highest component (R124) -/

/-- The highest component is the greater of the one held, if any, and the largest written. -/
theorem highestComponent_spec (records : List ClipRecord) (old : Option Nat) (h : records ≠ [] ∨ old ≠ none) :
    ∃ top, highestComponent old records = some top ∧ (∀ r ∈ records, r.component ≤ top) ∧
      (∀ o, old = some o → o ≤ top) ∧ ((∃ r ∈ records, r.component = top) ∨ old = some top) := by
  induction records generalizing old with
  | nil =>
    obtain ⟨o, rfl⟩ := Option.ne_none_iff_exists'.mp (h.resolve_left (fun hn => hn rfl))
    exact ⟨o, rfl, (fun r hr => nomatch hr), fun x hx => (Option.some.inj hx).ge, .inr rfl⟩
  | cons r rs ih =>
    obtain ⟨top, htop, hall, hheld, hsource⟩ :=
      ih (some (max (old.getD 0) r.component)) (.inr (Option.some_ne_none _))
    have hmax : max (old.getD 0) r.component ≤ top := hheld _ rfl
    refine ⟨top, htop, List.forall_mem_cons.mpr ⟨le_trans (le_max_right ..) hmax, hall⟩, ?_, ?_⟩
    · rintro o rfl
      exact le_trans (le_max_left ..) hmax
    · rcases hsource with ⟨x, hx, hc⟩ | hc
      · exact .inl ⟨x, List.mem_cons_of_mem _ hx, hc⟩
      · have hc : max (old.getD 0) r.component = top := Option.some.inj hc
        rcases Nat.le_total (old.getD 0) r.component with hle | hle
        · exact .inl ⟨r, List.mem_cons_self .., (max_eq_right hle).symm.trans hc⟩
        · cases old with
          | none => exact .inl ⟨r, List.mem_cons_self .., (max_eq_right (Nat.zero_le _)).symm.trans hc⟩
          | some o => exact .inr (congrArg some ((max_eq_left hle).symm.trans hc))

/-! ## CLIP.WRITE (R123, R124) -/

/-- A record as the clip area stores it (R202). -/
def storedRecord (r : RecordBody) : ClipRecord := recordOf r.component.toNat r.due.toNat r.flags r.payload

theorem readRecords_some {bodies : List RecordBody} (h : ∀ r ∈ bodies, r.component.toNat ≤ 3) :
    readAll readRecord bodies = some (bodies.map storedRecord) :=
  readAll_some bodies (fun r hr => (readRecord_eq r).trans (if_pos (h r hr)))

theorem readRecords_none {bodies : List RecordBody} (h : ¬∀ r ∈ bodies, r.component.toNat ≤ 3) :
    readAll readRecord bodies = none := by
  simp only [not_forall] at h
  obtain ⟨r, hr, hc⟩ := h
  exact readAll_none bodies ⟨r, hr, (readRecord_eq r).trans (if_neg hc)⟩

section

variable {clip first : Nat} {bodies : List RecordBody} {s : State}

theorem handleClipWrite_unread (h : ¬(∀ r ∈ bodies, r.component.toNat ≤ 3) ∨ bodies = []) :
    handleClipWrite clip first bodies s = .refuse .range := by
  unfold handleClipWrite
  rcases h with h | rfl
  · rw [readRecords_none h]
  · rfl

/-- Read records come to the clip's entry. -/
theorem handleClipWrite_read {records : List ClipRecord} (hin : ∀ r ∈ bodies, r.component.toNat ≤ 3)
    (hrecords : bodies.map storedRecord = records) (h1 : 1 ≤ records.length) (h8 : records.length ≤ 8) :
    ((s.clips.get clip = none ∨ ∃ e, s.clips.get clip = some e ∧ e.ready = true) →
      handleClipWrite clip first bodies s = .refuse .state) ∧
    ∀ e, s.clips.get clip = some e → e.ready = false → handleClipWrite clip first bodies s =
      if ∃ r ∈ records, e.duration ≤ r.due then .refuse .range
      else if first ≠ e.written ∨ dueInOrder e.lastDue records = false then .refuse .order
      else if e.capacity < e.written + records.length then .refuse .full
      else .ok { s with
        clipCells := s.clipCells.putRun (e.base + e.written) records
        clips := s.clips.put clip (e.afterWrite records) } [] := by
  have hlen : ¬(records.length < 1 ∨ 8 < records.length) := by omega
  unfold handleClipWrite
  rw [readRecords_some hin, hrecords]
  dsimp only
  rw [if_neg hlen]
  refine ⟨?_, fun e he hr => ?_⟩
  · rintro (hn | ⟨e, he, hr⟩)
    · rw [hn]
    · rw [he]
      exact if_pos hr
  · rw [he]
    refine (if_neg (by rw [hr]; decide)).trans (if_congr ?_ rfl rfl)
    simp only [List.any_eq_true, decide_eq_true_eq]

end

/-- Settles O35: the records are read, then the clip's entry decides; the run of records and the new entry follow. -/
theorem clipWrite : Obligations.ClipWrite := by
  unfold Obligations.ClipWrite
  intro inRange stored inOrder
  have hframe {tag clip first} {bodies : List RecordBody} (hwf : bodies.all RecordBody.wellFormed = true)
      (h8 : bodies.length ≤ 8) : (Instr.clipWrite tag clip first bodies).wellFormed = true := by
    rw [Instr.wellFormed, Bool.and_eq_true]
    exact ⟨decide_eq_true h8, hwf⟩
  have hlength {bodies : List RecordBody} {records : List ClipRecord} (h : stored bodies = records) :
      bodies.length = records.length := by
    rw [← h]
    exact (List.length_map ..).symm
  have horder (last : Option Nat) (records : List ClipRecord) :
      dueInOrder last records = false ↔ ¬inOrder last records := by
    rw [← Bool.not_eq_true, dueInOrder_iff]
  have hfits {e : ClipEntry} {records : List ClipRecord} (h : ∀ r ∈ records, r.due < e.duration) :
      ¬∃ r ∈ records, e.duration ≤ r.due := fun ⟨r, hr, hd⟩ => absurd hd (not_le.mpr (h r hr))
  refine ⟨fun tag clip first bodies s hwf h8 hmay hout => ?_,
    fun tag clip first bodies s records e hwf hin hst h1 h8 hmay he hready hdue hfirst hord hroom => ?_,
    fun tag clip first bodies s records hwf hin hst h1 h8 hmay => ?_⟩
  · exact next_request_refuse hmay (hframe hwf h8) (handleClipWrite_unread hout)
  · have hord : ¬(first.toNat ≠ e.written ∨ dueInOrder e.lastDue records = false) := by
      rw [horder]
      exact fun h => h.elim (fun h => h hfirst) (fun h => h hord)
    have hread := (handleClipWrite_read (clip := clip.toNat) (first := first.toNat) (s := s) hin hst h1 h8).2 e he hready
    obtain ⟨top, htop, hall, hheld, hsource⟩ :=
      highestComponent_spec records e.highest (.inl (List.length_pos_iff.mp h1))
    refine ⟨_, e.afterWrite records, next_request_ok hmay (hframe hwf (hlength hst ▸ h8))
      (hread.trans ((if_neg (hfits hdue)).trans ((if_neg hord).trans (if_neg (not_lt.mpr hroom))))),
      rfl, rfl, hready, rfl, rfl, rfl, rfl, rfl, rfl, fun r hr => ?_, ⟨top, htop, hall, hheld, hsource⟩,
      fun i r hr => ?_, fun n hn => ?_⟩
    · unfold ClipEntry.afterWrite
      dsimp only
      rw [hr]
    · exact State.clipRecord_stored (Table.get_putRun_at _ _ hr)
    · exact State.clipRecord_congr (Table.get_putRun_outside _ _ hn)
  · have hread := handleClipWrite_read (clip := clip.toNat) (first := first.toNat) (s := s) hin hst h1 h8
    have hw := hframe (tag := tag) (clip := clip) (first := first) hwf (hlength hst ▸ h8)
    refine ⟨fun hstate => next_request_refuse hmay hw (hread.1 hstate), fun e he hready => ⟨fun hlate => ?_, ?_, ?_⟩⟩
    · exact next_request_refuse hmay hw ((hread.2 e he hready).trans (if_pos hlate))
    · intro hdue hord
      rw [← horder] at hord
      exact next_request_refuse hmay hw ((hread.2 e he hready).trans ((if_neg (hfits hdue)).trans (if_pos hord)))
    · intro hdue hfirst hord hfull
      have hord : ¬(first.toNat ≠ e.written ∨ dueInOrder e.lastDue records = false) := by
        rw [horder]
        exact fun h => h.elim (fun h => h hfirst) (fun h => h hord)
      exact next_request_refuse hmay hw
        ((hread.2 e he hready).trans ((if_neg (hfits hdue)).trans ((if_neg hord).trans (if_pos hfull))))

/-! ## REEL.SET (R130, R131) -/

section

variable {reel : Nat} {bodies : List StepBody} {s : State}

/-- A step as REEL.SET reads it (R130). -/
def stepOf (b : StepBody) : ReelStep :=
  if b.kind = 0#8 then .play b.clip.toNat
  else if b.kind = 1#8 then .loop b.count.toNat else if b.kind = 2#8 then .next else .hold

theorem State.reelUses_ne_zero : s.reelUses reel ≠ 0 ↔ ∃ r, s.reels.get reel = some r ∧ r.uses ≠ 0 := by
  unfold State.reelUses
  cases s.reels.get reel with
  | none => simp
  | some r => simp

theorem handleReelSet_unread (h : ¬(reel ≤ 31 ∧ bodies.length ≤ 24 ∧ ∀ b ∈ bodies, b.kind.toNat ≤ 3)) :
    handleReelSet reel bodies s = .refuse .range := by
  unfold handleReelSet
  by_cases hk : reel ≤ 31
  · rw [readRange, if_pos ⟨Nat.zero_le _, hk⟩]
    by_cases hs : ∀ b ∈ bodies, b.kind.toNat ≤ 3
    · rw [readAll_some bodies (fun b hb => (readStep_eq b).trans (if_pos (hs b hb)))]
      exact if_pos (not_le.mp (fun hl => h ⟨hk, by simpa using hl, hs⟩))
    · simp only [not_forall] at hs
      obtain ⟨b, hb, hn⟩ := hs
      rw [readAll_none bodies ⟨b, hb, (readStep_eq b).trans (if_neg hn)⟩]
  · rw [readRange, if_neg (fun hn => hk hn.2)]

/-- Read steps come to the checks of R130, in their order. -/
theorem handleReelSet_read (hk : reel ≤ 31) (hl : bodies.length ≤ 24) (hs : ∀ b ∈ bodies, b.kind.toNat ≤ 3) :
    handleReelSet reel bodies s =
      if balanced (bodies.map stepOf) 0 = false then .refuse .balance
      else if depthFits (bodies.map stepOf) 0 = false then .refuse .depth
      else if bodiesFilled (bodies.map stepOf) [] = false then .refuse .emptyLoop
      else if s.reelUses reel ≠ 0 then .refuse .inUse
      else .ok { s with
        reels := if bodies.map stepOf = [] then s.reels.del reel
          else s.reels.put reel { steps := bodies.map stepOf, uses := 0 } } [] := by
  have hread : readAll readStep bodies = some (bodies.map stepOf) :=
    readAll_some bodies (fun b hb => (readStep_eq b).trans (if_pos (hs b hb)))
  have hlen : ¬24 < (bodies.map stepOf).length := by simpa using hl
  unfold handleReelSet
  rw [readRange, if_pos ⟨Nat.zero_le _, hk⟩, hread]
  refine (if_neg hlen).trans ?_
  by_cases hn : bodies.map stepOf = []
  · simp only [hn, List.isEmpty_nil, if_true]
  · have he : (bodies.map stepOf).isEmpty = false := by rwa [List.isEmpty_eq_false_iff]
    simp only [hn, he, if_false, Bool.false_eq_true]

end

/-- Settles O37: the checks mean balance, depth and filled bodies; each refusal is one step of their chain. -/
theorem reelSet : Obligations.ReelSet := by
  unfold Obligations.ReelSet
  intro tag reel bodies s hcount hmay inRange steps shallow
  have hw : (Instr.reelSet tag reel bodies).wellFormed = true := decide_eq_true hcount
  have hread (hin : inRange) := handleReelSet_read (s := s) hin.1 hin.2.1 hin.2.2
  have hbalance : balanced steps 0 = false ↔ ¬reelBalanced steps := by
    rw [← Bool.not_eq_true, balanced_iff]
  have hdepth (hb : reelBalanced steps) : depthFits steps 0 = false ↔ ¬shallow := by
    rw [← Bool.not_eq_true, depthFits_iff hb]
  have hfilled (hb : reelBalanced steps) : bodiesFilled steps [] = false ↔ ¬bodiesHold steps := by
    rw [← Bool.not_eq_true, bodiesFilled_iff hb]
  refine ⟨fun hout => ?_, fun hin hb => ?_, fun hin hb hd => ?_, fun hin hb hd hf => ?_, fun hin hb hd hf hu => ?_,
    fun hin hb hd hf hu => ?_⟩
  · exact next_request_refuse hmay hw (handleReelSet_unread hout)
  · exact next_request_refuse hmay hw ((hread hin).trans (if_pos (hbalance.mpr hb)))
  · exact next_request_refuse hmay hw ((hread hin).trans
      ((if_neg (fun h => hbalance.mp h hb)).trans (if_pos ((hdepth hb).mpr hd))))
  · exact next_request_refuse hmay hw ((hread hin).trans
      ((if_neg (fun h => hbalance.mp h hb)).trans ((if_neg (fun h => (hdepth hb).mp h hd)).trans
        (if_pos ((hfilled hb).mpr hf)))))
  · exact next_request_refuse hmay hw ((hread hin).trans
      ((if_neg (fun h => hbalance.mp h hb)).trans ((if_neg (fun h => (hdepth hb).mp h hd)).trans
        ((if_neg (fun h => (hfilled hb).mp h hf)).trans (if_pos (State.reelUses_ne_zero.mpr hu))))))
  · have hfree : ¬s.reelUses reel.toNat ≠ 0 := fun h => by
      obtain ⟨r, hr, hn⟩ := State.reelUses_ne_zero.mp h
      exact hn (hu r hr)
    exact next_request_ok hmay hw ((hread hin).trans
      ((if_neg (fun h => hbalance.mp h hb)).trans ((if_neg (fun h => (hdepth hb).mp h hd)).trans
        ((if_neg (fun h => (hfilled hb).mp h hf)).trans (if_neg hfree)))))

end Sys2Proof.Machine

/-! SUPPORT. The requests that read: what each handler answers, as the reply lays it out (R22, R56, R92, R108, R110, R116,
R127, R132, R145, R193, R201). -/

namespace Sys2Proof.Machine

/-! ## Fields (R201) -/

theorem beNat_beInt (k : Nat) (n : Int) : beNat (beInt k n) = (n % (256 ^ k : Nat)).toNat := by
  have hpos : (0 : Int) < (256 ^ k : Nat) := by exact_mod_cast Nat.pow_pos (n := k) (show 0 < 256 by decide)
  have hlt := Int.emod_lt_of_pos n hpos
  exact beNat_beBytes_of_lt (by omega)

/-- A row of flags, a byte for each. -/
theorem flatMap_encFlag {α : Type} (f : α → Bool) (xs : List α) :
    xs.flatMap (fun x => encFlag (f x)) = xs.map (fun x => if f x = true then 1 else 0) :=
  List.map_eq_flatMap.symm

/-- A row of numbers, a byte for each. -/
theorem flatMap_beBytes_one {α : Type} (f : α → Nat) (xs : List α) :
    xs.flatMap (fun x => beBytes 1 (f x)) = xs.map (fun x => BitVec.ofNat 8 (f x)) := by
  simp only [beBytes_one]
  exact List.map_eq_flatMap.symm

section

variable {s : State} {k : Nat}

/-! ## Classification (R56) -/

theorem handleOriginRead_invalid (hk : k ≤ 15) (h : s.origins.get k = none) :
    handleOriginRead k s = .ok s (List.replicate 8 0) := by
  refine (if_neg (not_lt.mpr hk)).trans ?_
  rw [h]
  rfl

theorem handleOriginRead_valid {e : OriginEntry} (hk : k ≤ 15) (h : s.origins.get k = some e) :
    handleOriginRead k s = .ok s (1 :: 1 :: (beBytes 4 e.originId.toNat ++ 1 :: beBytes 1 e.links.code)) := by
  refine (if_neg (not_lt.mpr hk)).trans ?_
  rw [h]
  rfl

theorem MergeRecord.fields_fresh : MergeRecord.fresh.fields = List.replicate 71 0 := rfl

theorem MergeRecord.fields_running (h : BitVec 32) (seen : BitVec 64) : (MergeRecord.running h seen).fields =
    1 :: 1 :: (beBytes 4 h.toNat ++ 1 :: (List.range 64).map (fun i => if seen.getLsbD i then 1 else 0)) := by
  rw [MergeRecord.fields, flatMap_encFlag]
  rfl

/-- The counters in their order (R45). -/
theorem StreamCounts.fields_eq (c : StreamCounts) : c.fields =
    beBytes 4 c.accepted ++ beBytes 4 c.duplicate ++ beBytes 4 c.stale ++ beBytes 4 c.lost ++ beBytes 4 c.late ++
      beBytes 4 c.early ++ beBytes 4 c.collision ++ beBytes 4 c.misaligned ++ beBytes 4 c.untimed ++
      beBytes 4 c.inconsistent := by
  simp only [StreamCounts.fields, List.flatMap_cons, List.flatMap_nil, List.append_nil, List.append_assoc]

theorem StreamEntry.held_eq (e : StreamEntry) :
    e.held = if e.cls = .service ∨ e.cls = .cue then e.service else none := by
  have hcls : e.cls.needsService = true ↔ e.cls = .service ∨ e.cls = .cue := by
    cases e.cls <;> decide
  exact if_congr hcls rfl rfl

theorem handleStreamRead_invalid (hk : k ≤ 511) (h : s.streams.get k = none) :
    handleStreamRead k s = .ok s (List.replicate 121 0) := by
  refine (if_neg (not_lt.mpr hk)).trans ?_
  rw [h]
  rfl

theorem handleStreamRead_valid {e : StreamEntry} (hk : k ≤ 511) (h : s.streams.get k = some e) :
    handleStreamRead k s = .ok s (1 :: 1 :: (beBytes 2 e.label ++ 1 :: beBytes 1 e.origin ++ 1 :: beBytes 1 e.cls.code ++
      encOptNat 1 e.held ++ (e.merge.fields ++ e.counts.fields))) := by
  refine (if_neg (not_lt.mpr hk)).trans ?_
  rw [h]
  rfl

theorem handleServiceRead_invalid (hk : k ≤ 63) (h : s.services.get k = none) :
    handleServiceRead k s = .ok s (List.replicate 35 0) := by
  refine (if_neg (not_lt.mpr hk)).trans ?_
  rw [h]
  rfl

/-- The labels of a service in a reply. -/
theorem encList_labels (e : ServiceEntry) :
    encList 1 (beBytes 2) e.labels = encList 1 (fun c => beBytes 2 (Component.label c)) e.components := by
  unfold encList ServiceEntry.labels
  rw [List.length_map, List.flatMap_map]

theorem handleServiceRead_valid {e : ServiceEntry} (hk : k ≤ 63) (h : s.services.get k = some e) :
    handleServiceRead k s = .ok s (1 :: 1 :: (beBytes 2 e.number ++
      1 :: encList 1 (fun c => beBytes 2 (Component.label c)) e.components ++ e.runtimeFields)) := by
  refine (if_neg (not_lt.mpr hk)).trans ?_
  rw [h]
  dsimp only
  rw [Option.getD_some, encList_labels]
  rfl

/-! ## The slot plan (R108) -/

theorem readBank_valid {bank : Byte} (h : bank = 0#8 ∨ bank = 1#8) : readBank bank = some (decide (bank = 1#8)) := by
  rcases h with rfl | rfl
  · rfl
  · rfl

theorem readBank_invalid {bank : Byte} (h : bank ≠ 0#8 ∧ bank ≠ 1#8) : readBank bank = none :=
  (if_neg h.1).trans (if_neg h.2)

theorem Assembler.bank_eq (a : Assembler) (bank : Byte) :
    a.bank (decide (bank = 1#8)) = if bank = 1#8 then a.bank1 else a.bank0 := by
  unfold Assembler.bank
  simp only [decide_eq_true_eq]

theorem handlePlanRead_valid {bank : Byte} {first count : Nat} (hb : bank = 0#8 ∨ bank = 1#8)
    (hl : first + count ≤ 1024) : handlePlanRead bank first count s =
      .ok s (encFlag s.assembler.activeOne ++ beBytes 2 s.assembler.bank0.length ++
        beBytes 2 s.assembler.bank1.length ++ encOptNat 4 (s.assembler.armedSwap.map BitVec.toNat) ++ beBytes 2 count ++
        (List.range count).map (fun i => BitVec.ofNat 8
          ((if bank = 1#8 then s.assembler.bank1 else s.assembler.bank0).entry (first + i)).code)) := by
  unfold handlePlanRead
  rw [readBank_valid hb]
  refine (if_pos hl).trans ?_
  dsimp only
  rw [Assembler.bank_eq, encList, List.length_range', flatMap_beBytes_one, List.range'_eq_map_range, List.map_map,
    ← List.append_assoc]
  rfl

theorem handlePlanRead_invalid {bank : Byte} {first count : Nat}
    (h : (bank ≠ 0#8 ∧ bank ≠ 1#8) ∨ 1024 < first + count) : handlePlanRead bank first count s = .refuse .range := by
  unfold handlePlanRead
  by_cases hb : bank = 0#8 ∨ bank = 1#8
  · rw [readBank_valid hb]
    exact if_neg (not_le.mpr (h.resolve_left (fun hn => hb.elim hn.1 hn.2)))
  · rw [readBank_invalid (not_or.mp hb)]

/-! ## Clips and reels (R127, R132) -/

theorem handleClipRead_empty (h : s.clips.get k = none) : handleClipRead k s = .ok s (List.replicate 37 0) := by
  unfold handleClipRead State.pins
  rw [h]
  rfl

theorem handleClipRead_held {e : ClipEntry} (h : s.clips.get k = some e) :
    handleClipRead k s = .ok s ((if e.ready then 2 else 1) :: 1 :: (beBytes 4 e.base ++ 1 :: beBytes 4 e.capacity ++
      1 :: beBytes 3 e.duration ++ 1 :: beBytes 5 e.clock.toNat ++ 1 :: beBytes 4 e.period ++
      1 :: beBytes 3 e.written ++ encOptNat 3 e.lastDue ++ encOptNat 1 e.highest ++ beBytes 1 e.pins)) := by
  have hcode : beBytes 1 (clipStateCode (some e)) = [if e.ready then 2 else 1] := by
    rw [beBytes_one]
    exact congrArg (fun b => [b]) (apply_ite (BitVec.ofNat 8) (e.ready = true) 2 1)
  unfold handleClipRead State.pins
  rw [h]
  dsimp only
  rw [hcode]
  rfl

theorem handleReelRead_inRange (hk : k ≤ 31) : handleReelRead k s =
    .ok s (encList 1 ReelStep.fields (s.reelSteps k) ++ encList 1 (beBytes 1) (closingSteps (s.reelSteps k) 0) ++
      beBytes 1 (s.reelUses k)) := if_neg (not_lt.mpr hk)

/-! ## Insertion records (R145) -/

theorem handleInsertRead_idle (hk : k ≤ 15) (h : s.insertions.get k = none) :
    handleInsertRead k s = .ok s (List.replicate 149 0) := by
  refine (if_neg (not_lt.mpr hk)).trans ?_
  rw [h]
  rfl

/-- A record's fields and its channel's follow each other in one row. -/
theorem handleInsertRead_held {r : Insertion} (hk : k ≤ 15) (h : s.insertions.get k = some r) :
    handleInsertRead k s = .ok s (recordFields s.n (some r) ++
      playFields s.n (r.channel.bind (fun c => (s.channels.get c).bind Channel.play)) r.timer) := by
  have hplay : s.playOf r.channel = r.channel.bind (fun c => (s.channels.get c).bind Channel.play) := by
    cases r.channel with
    | none => rfl
    | some c => rfl
  refine (if_neg (not_lt.mpr hk)).trans ?_
  rw [h, ← hplay]
  rfl

end

/-- Settles O14: each handler's answer, laid out field by field. -/
theorem readsChangeNothing : Obligations.ReadsChangeNothing := by
  unfold Obligations.ReadsChangeNothing
  refine ⟨⟨fun k n => ⟨beBytes_length k n, beNat_beBytes k n⟩, fun k n => ⟨beBytes_length k _, beNat_beInt k n⟩, rfl, rfl,
    rfl, rfl, fun k put v => ⟨rfl, rfl⟩, fun k => rfl, rfl, rfl, rfl, rfl, rfl, rfl, rfl, rfl, rfl, rfl, rfl⟩,
    fun tag s => ?_⟩
  intro slots place current
  refine ⟨fun hmay => ?_, fun k hk hmay => ?_, fun k hk hmay => ?_, fun k hk hmay => ?_, fun hmay => ?_, fun hmay => ?_,
    fun bank first count hbank hlast hmay => ?_, fun hmay => ?_, fun k hmay => ?_, fun k hk hmay => ?_,
    fun k hk hmay => ?_, fun k hk hmay => ?_, fun k hk hmay => ?_, fun k hk hmay => ?_,
    fun bank first count hout hmay => ?_, fun k hk hmay => ?_, fun k hk hmay => ?_, fun hmay => ?_⟩
  · intro u
    refine (next_request_ok hmay rfl rfl).trans ?_
    unfold TimeUnit.fields TimeConfig.fields
    simp only [← List.append_assoc]
    rfl
  · refine next_request_ok hmay rfl ?_
    split
    · next h => exact handleOriginRead_invalid hk h
    · next e h => exact handleOriginRead_valid hk h
  · refine next_request_ok hmay rfl ?_
    split
    · next h => exact handleStreamRead_invalid hk h
    · next e h =>
      rw [handleStreamRead_valid hk h, StreamEntry.held_eq, StreamCounts.fields_eq]
      generalize e.merge = m
      cases m with
      | fresh => simp only [MergeRecord.fields_fresh, ← List.append_assoc]
      | running H seen => simp only [MergeRecord.fields_running, ← List.append_assoc]
  · refine next_request_ok hmay rfl ?_
    split
    · next h => exact handleServiceRead_invalid hk h
    · next e h =>
      rw [handleServiceRead_valid hk h]
      unfold ServiceEntry.runtimeFields anchorFields encList
      simp only [← List.append_assoc]
  · exact next_request_ok hmay rfl rfl
  · intro c
    refine (next_request_ok hmay rfl rfl).trans ?_
    simp only [current, ← List.append_assoc]
    rfl
  · exact next_request_ok hmay rfl (handlePlanRead_valid hbank hlast)
  · exact next_request_ok hmay rfl rfl
  · refine next_request_ok hmay rfl ?_
    split
    · next h => exact handleClipRead_empty h
    · next e h => exact handleClipRead_held h
  · intro steps
    refine ⟨closingSteps steps 0, (next_request_ok hmay rfl (handleReelRead_inRange hk)).trans ?_, closingSteps_spec⟩
    simp only [encList, ← List.append_assoc]
    rfl
  · refine next_request_ok hmay rfl ?_
    split
    · next h => exact handleInsertRead_idle hk h
    · next r h =>
      rw [handleInsertRead_held hk h]
      unfold playFields
      simp only [← List.append_assoc]
      rfl
  · exact next_request_refuse hmay rfl (if_pos hk)
  · exact next_request_refuse hmay rfl (if_pos hk)
  · exact next_request_refuse hmay rfl (if_pos hk)
  · exact next_request_refuse hmay rfl (handlePlanRead_invalid hout)
  · exact next_request_refuse hmay rfl (if_pos hk)
  · exact next_request_refuse hmay rfl (if_pos hk)
  · exact next_request_ok hmay rfl rfl

end Sys2Proof.Machine
